-- ==== Sys2Proof/Word.lean ====
section
/-! DEFINITION. The words of the engine and the plain values it names: bytes, the host's data
word, the status enumeration, the operation in progress, the response record. -/

namespace Sys2Proof

/-- A byte: an unsigned integer 0 to 255 (00_scope.md R8). -/
abbrev Byte := BitVec 8

/-- What one host register access carries. The spec leaves the host bus open (10_state.md R42);
16 bits hold the widest register (RAWLEN, 9 bits). DESIGN CHOICE, log entry 7. -/
abbrev HostWord := BitVec 16

/-- RxStatus, the closed enumeration of 30_encoding.md R98, in its order. -/
inductive RxStatus where
  | ok
  | timeout
  | sizeErr
  | zetagErr
  | checksumErr
  | formatErr
  deriving DecidableEq, Repr, Inhabited

/-- Which operation is in progress (10_state.md R29). -/
inductive Op where
  | cmd
  | raw
  deriving DecidableEq, Repr, Inhabited

/-- The fields of a response beside its status (10_state.md R43). -/
structure RspFields where
  len : Byte
  ty : Byte
  payload : List Byte
  crc : Byte
  deriving DecidableEq, Repr

/-- The ReceivedResponse of 10_state.md R43; `none` stands for fields that are not to be relied
on (R26). -/
structure Response where
  status : RxStatus
  fields : Option RspFields
  deriving DecidableEq, Repr

/-- What `decode(s)` answers (42_decode.md R159): stuck after taking `k` bytes, or done with a
status after taking `k` bytes. -/
inductive DecodeResult where
  | blocked (k : Nat)
  | done (status : RxStatus) (k : Nat) (fields : Option RspFields)
  deriving DecidableEq, Repr

end Sys2Proof
end

