-- ==== Sys2Proof/Config.lean ====
section
/-! DEFINITION. What is fixed for the machine: the parameters of 00_scope.md R7, the type-code
registry of 30_encoding.md section 2, the parameters 92_eei_decisions.md leaves OPEN, and the
free values (opaque constants: nothing can be proved of what they are). -/

namespace Sys2Proof.Config

/-- 00_scope.md R7: PREAMBLE0. -/
def preamble0 : Byte := 0xFF
/-- 00_scope.md R7: PREAMBLE1. -/
def preamble1 : Byte := 0x00
/-- 00_scope.md R7: SYNC_LIMIT. -/
def syncLimit : Nat := 15
/-- 00_scope.md R7: MIN_LEN. -/
def minLen : Nat := 2
/-- 00_scope.md R7: MAX_PLEN. -/
def maxPlen : Nat := 253
/-- 00_scope.md R7: MIN_RAWLEN. -/
def minRawlen : Nat := 4
/-- 00_scope.md R7: TXBUF_SIZE, at its default (log entry 19). -/
def txbufSize : Nat := 258
/-- 00_scope.md R7: RXBUF_SIZE. -/
def rxbufSize : Nat := 253
/-- 44_device_operations.md R217: the application-data limit, the caller's own. -/
def maxAppData : Nat := 30

/-- 30_encoding.md R87. -/
def tyMac : Byte := 0x01
/-- 30_encoding.md R88. -/
def tyVersion : Byte := 0x02
/-- 30_encoding.md R89. -/
def tySetTxMode : Byte := 0x40
/-- 30_encoding.md R90. -/
def tyTxPower : Byte := 0x41
/-- 30_encoding.md R91. -/
def tyRadioParam : Byte := 0x42
/-- 30_encoding.md R92. -/
def tyOpMode : Byte := 0x44
/-- 30_encoding.md R93. -/
def tyAppData : Byte := 0x80
/-- 30_encoding.md R94; 00_scope.md R7 TYPE_CH_SPACE_SET. -/
def tyChSpaceSet : Byte := 0xF0
/-- 30_encoding.md R95; 00_scope.md R7 TYPE_CH_SPACE_QRY. -/
def tyChSpaceQry : Byte := 0xF1
/-- 30_encoding.md R96; 00_scope.md R7 TYPE_ERROR. -/
def tyError : Byte := 0xFF

/-- The type codes that have a row of their own (30_encoding.md R87 to R96). -/
def registry : List Byte :=
  [tyMac, tyVersion, tySetTxMode, tyTxPower, tyRadioParam, tyOpMode, tyAppData, tyChSpaceSet,
    tyChSpaceQry, tyError]

/-- A free value of width `w`, the `any` of 00_scope.md R10: unconstrained. Log entries 4 to 6. -/
opaque freeBits : (w : Nat) → Nat → BitVec w
/-- A free RxStatus: the content of `status` after a reset input (10_state.md R39). Log entry 5. -/
opaque freeStatus : Nat → RxStatus
/-- A free operation name: the content of `op` after a reset input (10_state.md R39). Log entry 5. -/
opaque freeOp : Nat → Op

/-- VERSION_PACK, OPEN (44_device_operations.md R211, 92_eei_decisions.md). Log entry 15. -/
opaque versionPack : Response → Byte
/-- Whether channel indices count from 1; OPEN (44_device_operations.md R215). Log entry 15. -/
opaque chIndexFromOne : Bool
/-- CH_INDEX_BASE, 0 or 1 (44_device_operations.md R215). -/
def chIndexBase : Int := if chIndexFromOne then 1 else 0
/-- How a stepKHz argument becomes a step in the units of D00 §4.5; OPEN
(44_device_operations.md R215, 90_conflicts.md C8). Log entry 15. -/
opaque stepOfKHz : Int → Int

end Sys2Proof.Config
end

