-- ==== Sys2Proof/Machine/Codec.lean ====
section
/-! DEFINITION. The unit functions: CHK's `checksum8` (40_checksum.md), ENC's `encodeCommand`
(41_encode.md), DEC's `decode` (42_decode.md), COR's `correlate` (43_dispatch_correlate.md). Pure
functions of bytes; no state. -/

namespace Sys2Proof.Machine

/-- 40_checksum.md R120: the sum of all bytes modulo 256. -/
def checksum8 : List Byte → Byte
  | [] => 0
  | b :: r => b + checksum8 r

/-- 30_encoding.md R80: the four header bytes. -/
def frameHeader (len ty : Byte) : List Byte := [Config.preamble0, Config.preamble1, len, ty]

/-- 30_encoding.md R81: LEN is the payload length plus 2, one byte. -/
def lenByte (n : Nat) : Byte := BitVec.ofNat 8 (n + 2)

/-- 41_encode.md R130, for payloads within R131's domain. -/
def encodeFrame (ty : Byte) (payload : List Byte) : List Byte :=
  let body := frameHeader (lenByte payload.length) ty ++ payload
  body ++ [checksum8 body]

/-- 42_decode.md R159 from PAYLOAD on, `k` bytes taken: the span, the CRC, VALIDATE. -/
def decodeSpan (len : Byte) (k : Nat) (s : List Byte) : DecodeResult :=
  if s.length < len.toNat then .blocked (k + s.length)
  else
    let span := s.take (len.toNat - 1)
    let crc := (s.drop (len.toNat - 1)).headD 0
    if checksum8 (Config.preamble0 :: Config.preamble1 :: len :: span) = crc then
      .done .ok (k + len.toNat) (some ⟨len, span.headD 0, span.tail, crc⟩)
    else .done .checksumErr (k + len.toNat) none

/-- 42_decode.md R159, LENGTH. -/
def decodeLength (k : Nat) : List Byte → DecodeResult
  | [] => .blocked k
  | len :: r =>
    if len.toNat < Config.minLen then .done .formatErr (k + 1) none else decodeSpan len (k + 1) r

/-- 42_decode.md R159, SECOND_PREAMBLE. -/
def decodeSecond (k : Nat) : List Byte → DecodeResult
  | [] => .blocked k
  | b :: r =>
    if b = Config.preamble1 then decodeLength (k + 1) r else .done .formatErr (k + 1) none

/-- 42_decode.md R159, SYNC: `cnt` bytes discarded and `k` taken so far. -/
def decodeSync (cnt k : Nat) : List Byte → DecodeResult
  | [] => .blocked k
  | b :: r =>
    if b = Config.preamble0 then decodeSecond (k + 1) r
    else if cnt = Config.syncLimit then .done .timeout (k + 1) none
    else decodeSync (cnt + 1) (k + 1) r

/-- 42_decode.md R159: the receive state machine as a function of the stream. -/
def decodeStream (s : List Byte) : DecodeResult := decodeSync 0 0 s

/-- 43_dispatch_correlate.md R182: the tests in D00's order. -/
def correlateTypes (decStatus : RxStatus) (reqType rspType : Byte) : RxStatus :=
  if decStatus ≠ .ok then decStatus
  else if rspType = Config.tyError then .zetagErr
  else if rspType = reqType then .ok
  else if reqType = Config.tyChSpaceSet ∧ rspType = Config.tyChSpaceQry then .ok
  else .checksumErr

end Sys2Proof.Machine
end

