-- ==== Sys2Proof/Syntax.lean ====
section
/-! DEFINITION. The instructions: one constructor for each row of spec/opcode_table.json, in the
table's order. HOSTOP rows are what a host write of CTRL.OPSEL asks for, FRAME rows are frames on
the wire, FUNC rows unit functions and micro-operations, STEP rows the engine's internal steps,
PSEUDO rows the host software's device operations (30_encoding.md R104). -/

namespace Sys2Proof

/-- The interface a frame crosses. Nothing in a frame says which way it travels: "The direction is
known only from the interface it crosses" (30_encoding.md R86). Log entry 11. -/
inductive Via where
  /-- assembled by ENC from its type and payload, sent by CMD (43_dispatch_correlate.md R180) -/
  | cmd
  /-- sent byte for byte by RAW (43_dispatch_correlate.md R181) -/
  | raw
  /-- supplied by the transport, into `rx_stream` (10_state.md R38) -/
  | rx
  deriving DecidableEq, Repr

/-- `setOperatingMode`'s argument (44_device_operations.md R212). -/
inductive OperatingMode where
  | normal
  | test
  deriving DecidableEq, Repr

/-- `setTxMode`'s argument (44_device_operations.md R216): FSK4, FSK8reserved, "any other mode
value". -/
inductive TxMode where
  | fsk4
  | fsk8reserved
  | other
  deriving DecidableEq, Repr

/-- `setFrequency`'s step argument: in the units of D00 §4.5, or in kilohertz as the signature of
D00 §6 types it (44_device_operations.md R215, 90_conflicts.md C8). -/
inductive FreqStep where
  | units (n : Int)
  | kHz (n : Int)
  deriving DecidableEq, Repr

/-- The instructions. In a FRAME row, `len` is the LEN byte of the header and `rest` the bytes
after the header (payload and CRC). -/
inductive Instr where
  -- HOSTOP
  | nop
  | cmd
  | raw
  | opselReserved
  -- FRAME
  | frMac (via : Via) (len : Byte) (rest : List Byte)
  | frVersion (via : Via) (len : Byte) (rest : List Byte)
  | frSetTxMode (via : Via) (len : Byte) (rest : List Byte)
  | frTxPower (via : Via) (len : Byte) (rest : List Byte)
  | frRadioParam (via : Via) (len : Byte) (rest : List Byte)
  | frOpMode (via : Via) (len : Byte) (rest : List Byte)
  | frAppData (via : Via) (len : Byte) (rest : List Byte)
  | frChSpaceSet (via : Via) (len : Byte) (rest : List Byte)
  | frChSpaceQry (via : Via) (len : Byte) (rest : List Byte)
  | frError (via : Via) (len : Byte) (rest : List Byte)
  | frAny (via : Via) (ty : Byte) (len : Byte) (rest : List Byte)
  -- FUNC
  | checksum8 (bytes : List Byte)
  | chkLoad (v : Byte)
  | chkAdd (b : Byte)
  | encodeCommand (ty : Byte) (payload : List Byte)
  | decode (stream : List Byte)
  | correlate (decStatus : RxStatus) (reqType rspType : Byte)
  -- STEP
  | txCmdPreamble0
  | txCmdPreamble1
  | txCmdLen
  | txCmdType
  | txCmdPayload
  | txCmdCrc
  | txRawByte
  | rxSync
  | rxSecondPreamble
  | rxLength
  | rxPayload
  | rxCrc
  | rxValidate
  | complete
  -- PSEUDO
  | getProtocolVersion
  | setOperatingMode (mode : OperatingMode)
  | setTxPower (dB : Int)
  | setChannelSpacing (kHz : Int)
  | setFrequency (hz channelCount : Int) (step : FreqStep)
  | setTxMode (mode : TxMode)
  | transmitApplicationData (bytes : List Byte)
  deriving DecidableEq, Repr

/-- An encoded instruction: the word of a CTRL write (30_encoding.md R99) or the bytes of a frame
and the interface they cross (R80, R86). -/
inductive Code where
  | ctrl (v : HostWord)
  | frame (via : Via) (bytes : List Byte)
  deriving DecidableEq, Repr

/-- Why the decoder rejects bytes as a frame (30_encoding.md R80, R85). -/
inductive DecodeError where
  /-- the first byte is not `0xFF` -/
  | badPreamble0
  /-- the second byte is not `0x00` -/
  | badPreamble1
  /-- fewer than the four bytes of the header -/
  | headerTruncated
  /-- fewer than the `LEN - 1` bytes that belong to the frame after its header -/
  | bodyTruncated
  deriving DecidableEq, Repr

/-- The host may ask for this itself: the HOSTOP, FRAME and PSEUDO rows and the pure functions
D00 gives as callable (30_encoding.md R102, R103). CHK.LOAD and CHK.ADD are "not host-visible"
(40_checksum.md R121, R122) and the STEP rows are the engine's own. -/
def Instr.hostCallable : Instr → Bool
  | .chkLoad _ | .chkAdd _ | .txCmdPreamble0 | .txCmdPreamble1 | .txCmdLen | .txCmdType
  | .txCmdPayload | .txCmdCrc | .txRawByte | .rxSync | .rxSecondPreamble | .rxLength | .rxPayload
  | .rxCrc | .rxValidate | .complete => false
  | .nop | .cmd | .raw | .opselReserved | .frMac _ _ _ | .frVersion _ _ _ | .frSetTxMode _ _ _
  | .frTxPower _ _ _ | .frRadioParam _ _ _ | .frOpMode _ _ _ | .frAppData _ _ _
  | .frChSpaceSet _ _ _ | .frChSpaceQry _ _ _ | .frError _ _ _ | .frAny _ _ _ _ | .checksum8 _
  | .encodeCommand _ _ | .decode _ | .correlate _ _ _ | .getProtocolVersion | .setOperatingMode _
  | .setTxPower _ | .setChannelSpacing _ | .setFrequency _ _ _ | .setTxMode _
  | .transmitApplicationData _ => true

end Sys2Proof
end

