-- ==== Sys2Proof/WellFormed.lean ====
section
/-! DEFINITION. Which instructions are well formed: the operand ranges the spec gives. -/

namespace Sys2Proof

/-- A frame term is well formed when as many bytes follow the header as LEN announces
(30_encoding.md R85: after the LEN byte exactly LEN more bytes, the first of them TYPE). A frame
sent by CMD is one ENC can make, so its LEN is 2 or more and its CRC the checksum of the rest
(R81, R82); a frame sent by RAW or received may have any LEN and any CRC (41_encode.md R140,
30_encoding.md R101). -/
def frameWf (via : Via) (ty len : Byte) (rest : List Byte) : Bool :=
  rest.length == len.toNat - 1 &&
    match via with
    | .cmd =>
      decide (Config.minLen ≤ len.toNat) &&
        rest.getLast? == some (Machine.checksum8 (Machine.frameHeader len ty ++ rest.dropLast))
    | .raw | .rx => true

/-- The checks, one a kind of operand: frames as `frameWf` says; FRAME.ANY's type is one no other
row names (30_encoding.md R104); `encodeCommand`'s payload has at most 253 bytes (41_encode.md
R131). Every other operand is free. -/
def Instr.wf : Instr → Bool
  | .frMac via len rest => frameWf via Config.tyMac len rest
  | .frVersion via len rest => frameWf via Config.tyVersion len rest
  | .frSetTxMode via len rest => frameWf via Config.tySetTxMode len rest
  | .frTxPower via len rest => frameWf via Config.tyTxPower len rest
  | .frRadioParam via len rest => frameWf via Config.tyRadioParam len rest
  | .frOpMode via len rest => frameWf via Config.tyOpMode len rest
  | .frAppData via len rest => frameWf via Config.tyAppData len rest
  | .frChSpaceSet via len rest => frameWf via Config.tyChSpaceSet len rest
  | .frChSpaceQry via len rest => frameWf via Config.tyChSpaceQry len rest
  | .frError via len rest => frameWf via Config.tyError len rest
  | .frAny via ty len rest => !(Config.registry.contains ty) && frameWf via ty len rest
  | .encodeCommand _ payload => decide (payload.length ≤ Config.maxPlen)
  | .nop | .cmd | .raw | .opselReserved | .checksum8 _ | .chkLoad _ | .chkAdd _ | .decode _
  | .correlate _ _ _ | .txCmdPreamble0 | .txCmdPreamble1 | .txCmdLen | .txCmdType
  | .txCmdPayload | .txCmdCrc | .txRawByte | .rxSync | .rxSecondPreamble | .rxLength
  | .rxPayload | .rxCrc | .rxValidate | .complete | .getProtocolVersion | .setOperatingMode _
  | .setTxPower _ | .setChannelSpacing _ | .setFrequency _ _ _ | .setTxMode _
  | .transmitApplicationData _ => true

end Sys2Proof
end

