-- ==== Sys2Proof/Decode.lean ====
section
/-! DEFINITION. The decoder, total on any CTRL word and any bytes, and the encoder after it. The
encodings are those of 30_encoding.md R99 (CTRL.OPSEL) and R80, R104 (frames). FUNC and STEP rows
have no bit encoding (R104); a PSEUDO row's word is that of the FRAME row it expands to. -/

namespace Sys2Proof

/-- 30_encoding.md R99, R100: OPSEL is bits [1:0]; 10_state.md R21: the bits above are ignored. -/
def decodeCtrl (v : HostWord) : Instr :=
  match v.toNat % 4 with
  | 0 => .nop
  | 1 => .cmd
  | 2 => .raw
  | _ => .opselReserved

/-- 30_encoding.md R104: the named rows first, then FRAME.ANY. -/
def frameInstr (via : Via) (ty len : Byte) (rest : List Byte) : Instr :=
  if ty = Config.tyMac then .frMac via len rest
  else if ty = Config.tyVersion then .frVersion via len rest
  else if ty = Config.tySetTxMode then .frSetTxMode via len rest
  else if ty = Config.tyTxPower then .frTxPower via len rest
  else if ty = Config.tyRadioParam then .frRadioParam via len rest
  else if ty = Config.tyOpMode then .frOpMode via len rest
  else if ty = Config.tyAppData then .frAppData via len rest
  else if ty = Config.tyChSpaceSet then .frChSpaceSet via len rest
  else if ty = Config.tyChSpaceQry then .frChSpaceQry via len rest
  else if ty = Config.tyError then .frError via len rest
  else .frAny via ty len rest

/-- 30_encoding.md R80, R85: four header bytes, then the `LEN - 1` bytes that belong to the frame
after TYPE; what follows is the rest of the bytes. LEN is a field and is not tested (R104). -/
def decodeFrame (via : Via) : List Byte → Except DecodeError (Instr × List Byte)
  | p0 :: p1 :: len :: ty :: r =>
    if p0 ≠ Config.preamble0 then .error .badPreamble0
    else if p1 ≠ Config.preamble1 then .error .badPreamble1
    else if r.length < len.toNat - 1 then .error .bodyTruncated
    else .ok (frameInstr via ty len (r.take (len.toNat - 1)), r.drop (len.toNat - 1))
  | _ => .error .headerTruncated

/-- The decoder: the instruction a code stands for and the bytes after it. -/
def decode : Code → Except DecodeError (Instr × List Byte)
  | .ctrl v => .ok (decodeCtrl v, [])
  | .frame via bytes => decodeFrame via bytes

/-- The word of a CTRL write (30_encoding.md R99). -/
def encodeOpsel (opsel : Nat) : Code := .ctrl (BitVec.ofNat 16 opsel)

/-- The bytes of a frame term (30_encoding.md R80). -/
def frameBytes (ty len : Byte) (rest : List Byte) : List Byte := Machine.frameHeader len ty ++ rest

/-- The encoder: the code of an instruction whose row has a match and a mask of its own; none for
the rows R104 gives no encoding (FUNC, STEP) and for the PSEUDO rows, whose word is that of the
frame they expand to (Machine/Pseudo.lean). -/
def encode : Instr → Option Code
  | .nop => some (encodeOpsel 0)
  | .cmd => some (encodeOpsel 1)
  | .raw => some (encodeOpsel 2)
  | .opselReserved => some (encodeOpsel 3)
  | .frMac via len rest => some (.frame via (frameBytes Config.tyMac len rest))
  | .frVersion via len rest => some (.frame via (frameBytes Config.tyVersion len rest))
  | .frSetTxMode via len rest => some (.frame via (frameBytes Config.tySetTxMode len rest))
  | .frTxPower via len rest => some (.frame via (frameBytes Config.tyTxPower len rest))
  | .frRadioParam via len rest => some (.frame via (frameBytes Config.tyRadioParam len rest))
  | .frOpMode via len rest => some (.frame via (frameBytes Config.tyOpMode len rest))
  | .frAppData via len rest => some (.frame via (frameBytes Config.tyAppData len rest))
  | .frChSpaceSet via len rest => some (.frame via (frameBytes Config.tyChSpaceSet len rest))
  | .frChSpaceQry via len rest => some (.frame via (frameBytes Config.tyChSpaceQry len rest))
  | .frError via len rest => some (.frame via (frameBytes Config.tyError len rest))
  | .frAny via ty len rest => some (.frame via (frameBytes ty len rest))
  | .checksum8 _ | .chkLoad _ | .chkAdd _ | .encodeCommand _ _ | .decode _ | .correlate _ _ _
  | .txCmdPreamble0 | .txCmdPreamble1 | .txCmdLen | .txCmdType | .txCmdPayload | .txCmdCrc
  | .txRawByte | .rxSync | .rxSecondPreamble | .rxLength | .rxPayload | .rxCrc | .rxValidate
  | .complete | .getProtocolVersion | .setOperatingMode _ | .setTxPower _ | .setChannelSpacing _
  | .setFrequency _ _ _ | .setTxMode _ | .transmitApplicationData _ => none

/-- The bytes of a 32-bit table word, the byte first on the wire most significant (30_encoding.md
R104), followed by the zero bytes its LEN announces. -/
def tableFrame (w : Nat) : List Byte :=
  let len : Byte := BitVec.ofNat 8 (w / 256)
  [BitVec.ofNat 8 (w / 16777216), BitVec.ofNat 8 (w / 65536), len, BitVec.ofNat 8 w]
    ++ List.replicate (len.toNat - 1) 0

/-- The code a table word stands for: a HOSTOP row has 2 bits (one byte), a FRAME row 32, taken as
a frame sent verbatim (log entry 12). -/
def tableCode (nbits w : Nat) : Option Code :=
  if nbits = 32 then some (.frame .raw (tableFrame w))
  else if nbits ≤ 16 then some (.ctrl (BitVec.ofNat 16 w))
  else none

/-- The instruction the decoder reads from a word of spec/opcode_table.json. -/
def decodeTableWord (nbits w : Nat) : Option Instr :=
  match tableCode nbits w with
  | none => none
  | some c =>
    match decode c with
    | .ok (i, _) => some i
    | .error _ => none

end Sys2Proof
end

