-- ==== Sys2Proof/Machine/State.lean ====
section
/-! DEFINITION. The state of the machine (10_state.md), the agents' pending moves, what can stop a
step, and the state after reset. -/

namespace Sys2Proof.Machine

/-- A byte buffer: (index, byte) pairs, indices strictly rising. An unlisted index holds no value
(10_state.md R39, 93_implementation_defined.md U9), so every listed entry differs from what an
unlisted index reads as. Log entry 4. -/
abbrev Memory := List Host.Cell

/-- The canonical form of a buffer of `size` bytes: indices strictly rising, all below `size`. -/
def Memory.wf (size : Nat) (m : Memory) : Bool :=
  decide (m.Pairwise fun a b => a.1 < b.1) && m.all fun c => decide (c.1 < size)

/-- 10_state.md R28. -/
inductive Phase where
  | idle
  | tx
  | rx
  deriving DecidableEq, Repr

/-- 10_state.md R33, in D00's order. -/
inductive RxState where
  | sync
  | secondPreamble
  | length
  | payload
  | crc
  | validate
  | terminal
  deriving DecidableEq, Repr

/-- What a pseudo-operation returns to its caller when its CMD has completed (44_device_operations.md
R211 to R217): the status, or the packed protocol version. -/
inductive ReturnKind where
  | status
  | version
  deriving DecidableEq, Repr

/-- One pending act of the host: an access of 10_state.md R42, one of the lines `CMD`, `RAW` and `RX:` of
30_encoding.md R102, a call of host software (R103), the reading back of a call's result. -/
inductive HostItem where
  /-- write host register `n`; `n = 0` is CTRL, whose word is decoded as an instruction -/
  | write (n : Nat) (v : HostWord)
  /-- read host register `n` -/
  | read (n : Nat)
  | txbufWrite (i : Nat) (b : Byte)
  | txbufRead (i : Nat)
  | rxbufWrite (i : Nat) (b : Byte)
  | rxbufRead (i : Nat)
  /-- `CMD <type>, [<payload>]` (R102): the frame ENC makes of them is decoded as an instruction -/
  | command (ty : Byte) (payload : List Byte)
  /-- `RAW [<bytes>]` (R102): one RAW of all the bytes, which need not form a frame (41_encode.md
  R140); those that are exactly one frame are decoded as an instruction -/
  | verbatim (bytes : List Byte)
  /-- `RX: <bytes>` (R102): bytes the transport is given, of any content (10_state.md R38); those that
  are exactly one frame are decoded as an instruction -/
  | received (bytes : List Byte)
  /-- a call of an instruction the host may ask for (`Instr.hostCallable`) -/
  | call (i : Instr)
  /-- the caller of a pseudo-operation takes its return value -/
  | collect (k : ReturnKind)
  deriving DecidableEq, Repr

/-- Whose move is next (20_memory.md R67: one agent acts at a time, in a total order). Log entry 3. -/
inductive Turn where
  | host
  | engine
  /-- the transport appends a byte to `rx_stream` -/
  | deliver (b : Byte)
  /-- reset is asserted (70_reset_and_hazards.md R260) -/
  | reset
  deriving DecidableEq, Repr

/-- A value handed to the host: by a register read, a buffer read or a function that has returned. -/
inductive Returned where
  | word (v : HostWord)
  | byte (b : Byte)
  | frame (bytes : List Byte)
  | decoded (r : DecodeResult)
  | status (st : RxStatus)
  deriving DecidableEq, Repr

/-- The state. Three groups as 10_state.md R20 has them, then the environment (R38), then the
model's own fields for the agents outside the engine (log entries 2, 3, 5, 14). -/
structure State where
  /-- R23 -/
  txtype : Byte
  /-- R24 -/
  plen : Byte
  /-- R25 -/
  rawlen : BitVec 9
  /-- R26 -/
  rlen : Byte
  /-- R26 -/
  rtype : Byte
  /-- R26 -/
  rcrc : Byte
  /-- R27 -/
  txbuf : Memory
  /-- R27 -/
  rxbuf : Memory
  /-- R28 -/
  phase : Phase
  /-- R29 -/
  op : Op
  /-- R30 -/
  txPos : BitVec 9
  /-- R33 -/
  rxState : RxState
  /-- R34 -/
  syncCnt : BitVec 4
  /-- R35 -/
  rxIdx : BitVec 8
  /-- R31 -/
  reqType : Byte
  /-- R32 -/
  chkAcc : Byte
  /-- R36 -/
  status : RxStatus
  /-- R36 -/
  respValid : Bool
  /-- R38: every byte handed to `TxWrite` so far, in order -/
  txHist : List Byte
  /-- R38: the bytes received, or to be received, and not yet taken -/
  rxStream : List Byte
  /-- the host's pending acts, the next first -/
  hostq : List HostItem
  /-- whose moves are next; empty: the engine while it is busy, else the host -/
  sched : List Turn
  /-- the values handed to the host so far, oldest first -/
  returned : List Returned
  /-- how many free values have been drawn -/
  freeCtr : Nat
  deriving DecidableEq, Repr

/-- What stops the machine. Both are safe: the model stops where the spec says that no step is
enabled. -/
inductive Fault where
  /-- An RX step found `rx_stream` empty (20_memory.md R65, 42_decode.md R161): the engine is
  stuck. Raised by the five byte-taking RX steps. Safe. Log entry 8. -/
  | stuck
  /-- An internal step was asked for outside its condition (opcode_table.json, `enabled_when`), or
  no step is enabled in a state that no run reaches. Raised by the STEP rows' meanings and by the
  engine's turn. Safe. Log entry 9. -/
  | notEnabled
  deriving DecidableEq, Repr

/-- What the spec gives no meaning (`refuse`, 00_scope.md R10). All are safe: nothing can be proved
of what the hardware does then. -/
inductive Refusal where
  /-- exec has no meaning yet for the instruction. Raised by exec's own arms. Safe. -/
  | notModelled (mnemonic : String)
  /-- OPSEL = 3 (30_encoding.md R100). Raised by OPSEL.RESERVED. Safe. -/
  | opselReserved
  /-- a payload longer than 253 bytes (41_encode.md R131). Raised by CMD, by encodeCommand, by a
  type and payload sent by CMD, and by TX.CMD.LEN in a state no run reaches. Safe. -/
  | plenOutOfRange
  /-- a verbatim frame of fewer than 4 or more than 258 bytes (43_dispatch_correlate.md R181).
  Raised by RAW and by bytes sent by RAW. Safe. -/
  | rawlenOutOfRange
  /-- a host write to STAT, RLEN, RTYPE, RCRC or RXBUF (10_state.md R22, R26, R42). Raised by the
  host's accesses. Safe. -/
  | readOnlyRegister
  /-- a host register number above 7 (10_state.md R42). Raised by the host's accesses. Safe. -/
  | hregOutOfRange
  /-- a TXBUF index above 257 or an RXBUF index above 252 (10_state.md R42). Raised by the host's
  accesses. Safe. -/
  | bufferIndexOutOfRange
  /-- a host call of a row that is the engine's own and "not host-visible" (`Instr.hostCallable`;
  40_checksum.md R121, R122; 30_encoding.md R104). Raised by the fetch. Safe. -/
  | notHostCallable
  deriving DecidableEq, Repr

/-- The answer of a meaning. -/
abbrev Result := Host.Outcome State Fault Refusal

/-- The machine right after reset (10_state.md R39, 70_reset_and_hazards.md R260): `phase` IDLE,
`rx_state` TERMINAL, `resp_valid` 0, both buffers holding no value. Every other field is a DESIGN
CHOICE of log entries 1, 2, 3, 5 and 14. -/
def State.reset : State where
  txtype := 0
  plen := 0
  rawlen := 0
  rlen := 0
  rtype := 0
  rcrc := 0
  txbuf := []
  rxbuf := []
  phase := .idle
  op := .cmd
  txPos := 0
  rxState := .terminal
  syncCnt := 0
  rxIdx := 0
  reqType := 0
  chkAcc := 0
  status := .ok
  respValid := false
  txHist := []
  rxStream := []
  hostq := []
  sched := []
  returned := []
  freeCtr := 0

end Sys2Proof.Machine
end

