-- ==== Sys2Proof/Machine/Ops.lean ====
section
/-! DEFINITION. The shared operations over buffers, streams and registers: the pseudocode
primitives of 00_scope.md R10 and the writes several steps have in common. -/

namespace Sys2Proof.Machine

/-- The byte a buffer holds at an index, if it holds one. -/
def Memory.readByte : Memory → Nat → Option Byte
  | [], _ => none
  | (c, v) :: r, i => if i = c then some v else Memory.readByte r i

/-- The buffer with byte `b` at index `i`, in canonical form. -/
def Memory.writeByte : Memory → Nat → Byte → Memory
  | [], i, b => [(i, b)]
  | (c, v) :: r, i, b =>
    if i < c then (i, b) :: (c, v) :: r
    else if i = c then (i, b) :: r
    else (c, v) :: Memory.writeByte r i b

/-- The buffer with the bytes `bs` at indices `i`, `i + 1`, and so on. -/
def Memory.writeBytes (m : Memory) (i : Nat) : List Byte → Memory
  | [] => m
  | b :: r => Memory.writeBytes (m.writeByte i b) (i + 1) r

/-- `n` free values have been drawn. -/
def State.draw (n : Nat) (s : State) : State := { s with freeCtr := s.freeCtr + n }

/-- `MemRead(buffer, i, 1)` (00_scope.md R10): the byte held, or a free value where none is held
(10_state.md R39, 93_implementation_defined.md U9). Log entry 4. -/
def readCell (m : Memory) (i : Nat) (s : State) : Byte × State :=
  match m.readByte i with
  | some b => (b, s)
  | none => (Config.freeBits 8 s.freeCtr, s.draw 1)

/-- `TxWrite(b)` (20_memory.md R65): always completes, appends to the transmit history. -/
def txWrite (b : Byte) (s : State) : State := { s with txHist := s.txHist ++ [b] }

/-- `RxRead()` (20_memory.md R65): the first byte of `rx_stream`, removed; none while it is empty. -/
def rxRead (s : State) : Option (Byte × State) :=
  match s.rxStream with
  | [] => none
  | b :: r => some (b, { s with rxStream := r })

/-- The transport supplies bytes (10_state.md R38, 20_memory.md R67). -/
def deliver (bs : List Byte) (s : State) : State := { s with rxStream := s.rxStream ++ bs }

/-- CHK.LOAD (40_checksum.md R121). -/
def chkLoadOp (v : Byte) (s : State) : State := { s with chkAcc := v }

/-- CHK.ADD (40_checksum.md R122). -/
def chkAddOp (b : Byte) (s : State) : State := { s with chkAcc := s.chkAcc + b }

/-- `raise` (60_exceptions.md R238), the block's taking of an exception: the status, and control to
TERMINAL. "No state is saved, no mode changes, no stack or vector is used." -/
def raiseStatus (st : RxStatus) (s : State) : State := { s with status := st, rxState := .terminal }

/-- The completion step (43_dispatch_correlate.md R185), the way back from a raised status and from
success alike: COR for a RAW (R183), then `resp_valid` and IDLE. There is no other return
(60_exceptions.md R240). -/
def completeOp (s : State) : State :=
  { s with
    status := if s.op = .raw then correlateTypes s.status s.reqType s.rtype else s.status
    respValid := true
    phase := .idle }

/-- Decoder entry (41_encode.md R139), in the step of the last transmitted byte. -/
def decoderEntry (s : State) : State :=
  { s with phase := .rx, rxState := .sync, syncCnt := 0 }

/-- What the start step of CMD writes (43_dispatch_correlate.md R180). -/
def cmdStarted (s : State) : State :=
  { s with op := .cmd, txPos := 0, chkAcc := 0, respValid := false, phase := .tx }

/-- What the start step of RAW writes (43_dispatch_correlate.md R181). -/
def rawStarted (s : State) : State :=
  { s with op := .raw, txPos := 0, respValid := false, phase := .tx }

/-- The start step of CMD, refused outside the domain of 41_encode.md R131. -/
def startCmd (s : State) : Result :=
  if s.plen.toNat ≤ Config.maxPlen then .next (cmdStarted s) else .refused .plenOutOfRange

/-- The start step of RAW, refused outside the domain of 43_dispatch_correlate.md R181. -/
def startRaw (s : State) : Result :=
  if Config.minRawlen ≤ s.rawlen.toNat ∧ s.rawlen.toNat ≤ Config.txbufSize then
    .next (rawStarted s)
  else .refused .rawlenOutOfRange

/-- The operands of a CMD, loaded as 70_reset_and_hazards.md R262 (b) says. -/
def loadCmd (ty : Byte) (payload : List Byte) (s : State) : State :=
  { s with
    txtype := ty
    plen := BitVec.ofNat 8 payload.length
    txbuf := s.txbuf.writeBytes 0 payload }

/-- The operands of a RAW, loaded as 70_reset_and_hazards.md R262 (c) says. -/
def loadRaw (bytes : List Byte) (s : State) : State :=
  { s with
    rawlen := BitVec.ofNat 9 bytes.length
    txbuf := s.txbuf.writeBytes 0 bytes }

/-- `CMD <type>, [<payload>]` of 30_encoding.md R102: load, then start. -/
def sendCommand (ty : Byte) (payload : List Byte) (s : State) : Result :=
  if payload.length ≤ Config.maxPlen then startCmd (loadCmd ty payload s)
  else .refused .plenOutOfRange

/-- `RAW [<frame bytes>]` of 30_encoding.md R102: load, then start. -/
def sendVerbatim (bytes : List Byte) (s : State) : Result :=
  if Config.minRawlen ≤ bytes.length ∧ bytes.length ≤ Config.txbufSize then
    startRaw (loadRaw bytes s)
  else .refused .rawlenOutOfRange

/-- The host's act waits: it stands first among the pending ones (20_memory.md R71: neither lost
nor overlapped). Log entry 10. -/
def post (item : HostItem) (s : State) : State := { s with hostq := item :: s.hostq }

/-- A value reaches the host. Log entry 14. -/
def giveBack (r : Returned) (s : State) : State := { s with returned := s.returned ++ [r] }

/-- A start the host asks for: taken while the engine is idle, otherwise it waits (20_memory.md
R71). -/
def whenIdle (item : HostItem) (act : State → Result) (s : State) : Result :=
  if s.phase = .idle then act s else .next (post item s)

/-- One byte of a CMD frame before the CRC goes out (41_encode.md R133 to R137): `TxWrite`, CHK.ADD,
next position. -/
def txCmdByte (b : Byte) (s : State) : State :=
  { chkAddOp b (txWrite b s) with txPos := s.txPos + 1 }

/-- The engine is transmitting a CMD frame and stands at position `p` (41_encode.md R132). -/
abbrev State.txCmdAt (s : State) (p : Nat) : Prop :=
  s.phase = .tx ∧ s.op = .cmd ∧ s.txPos.toNat = p

/-- A step that takes one byte in receive state `st` (42_decode.md R150): not enabled in another
state, stuck while no byte is there. -/
def rxStep (st : RxState) (act : Byte → State → State) (s : State) : Result :=
  if s.phase = .rx ∧ s.rxState = st then
    match rxRead s with
    | none => .fault .stuck
    | some r => .next (act r.1 r.2)
  else .fault .notEnabled

/-- Reset (70_reset_and_hazards.md R260): `phase` IDLE, `rx_state` TERMINAL, `resp_valid` 0; every
other register and both buffers unspecified, so free values and buffers that hold nothing; the
transport and the host's own pending acts untouched. Log entry 5. -/
def resetEngine (s : State) : State :=
  { s with
    phase := .idle
    rxState := .terminal
    respValid := false
    txtype := Config.freeBits 8 s.freeCtr
    plen := Config.freeBits 8 (s.freeCtr + 1)
    rlen := Config.freeBits 8 (s.freeCtr + 2)
    rtype := Config.freeBits 8 (s.freeCtr + 3)
    rcrc := Config.freeBits 8 (s.freeCtr + 4)
    rxIdx := Config.freeBits 8 (s.freeCtr + 5)
    reqType := Config.freeBits 8 (s.freeCtr + 6)
    chkAcc := Config.freeBits 8 (s.freeCtr + 7)
    rawlen := Config.freeBits 9 s.freeCtr
    txPos := Config.freeBits 9 (s.freeCtr + 1)
    syncCnt := Config.freeBits 4 s.freeCtr
    op := Config.freeOp s.freeCtr
    status := Config.freeStatus s.freeCtr
    txbuf := []
    rxbuf := []
    freeCtr := s.freeCtr + 8 }

end Sys2Proof.Machine
end

