-- ==== Sys2Proof/Machine/Operands.lean ====
section
/-! DEFINITION. The operand forms: what a frame term and each pseudo-operation send
(30_encoding.md R86, 44_device_operations.md section 2). -/

namespace Sys2Proof.Machine

/-- 44_device_operations.md R219. -/
def clamp (x lo hi : Int) : Int := if x < lo then lo else if hi < x then hi else x

/-- 44_device_operations.md R212. -/
def operatingModePayload : OperatingMode → List Byte
  | .test => [0x01, 0x00, 0x01]
  | .normal => [0x00]

/-- 44_device_operations.md R213: `2 * clamp(dB, 1, 10)`. -/
def txPowerPayload (dB : Int) : List Byte := [BitVec.ofInt 8 (2 * clamp dB 1 10)]

/-- 44_device_operations.md R214: the low byte of `clamp(kHz, 100, 200)`. -/
def channelSpacingPayload (kHz : Int) : List Byte := [BitVec.ofInt 8 (clamp kHz 100 200)]

/-- 44_device_operations.md R215: four bytes, most significant first. -/
def bigEndian4 (v : BitVec 32) : List Byte :=
  [v.extractLsb' 24 8, v.extractLsb' 16 8, v.extractLsb' 8 8, v.extractLsb' 0 8]

/-- The step argument in the units of D00 §4.5 (44_device_operations.md R215, 90_conflicts.md C8).
Log entry 15. -/
def freqStepUnits : FreqStep → Int
  | .units n => n
  | .kHz n => Config.stepOfKHz n

/-- 44_device_operations.md R215, the channel bytes: `(idx(k) * s) mod 256` with
`idx(k) = k + CH_INDEX_BASE`. -/
def channelBytes (base : Int) (c : Nat) (step : Int) : List Byte :=
  (List.range c).map fun (k : Nat) => BitVec.ofInt 8 ((Int.ofNat k + base) * step)

/-- 44_device_operations.md R215, with CH_INDEX_BASE and the unclamped step as arguments. -/
def frequencyPayloadAt (base hz channelCount step : Int) : List Byte :=
  let f := bigEndian4 (BitVec.ofInt 32 (clamp hz 470000000 928000000))
  let c := clamp channelCount 1 6
  if c = 1 then 0x00 :: f
  else 0x01 :: f ++ BitVec.ofInt 8 c :: channelBytes base c.toNat (clamp step 1 2)

/-- 44_device_operations.md R215. -/
def frequencyPayload (hz channelCount : Int) (step : FreqStep) : List Byte :=
  frequencyPayloadAt Config.chIndexBase hz channelCount (freqStepUnits step)

/-- 44_device_operations.md R216. -/
def txModePayload : TxMode → List Byte
  | .fsk4 => [0x01]
  | .fsk8reserved | .other => [0x10]

/-- 44_device_operations.md R217: the first `min(len(input), 30)` bytes. -/
def appDataPayload (bytes : List Byte) : List Byte := bytes.take Config.maxAppData

/-- The host sends a type and a payload by CMD (30_encoding.md R102, 43_dispatch_correlate.md R180). -/
def sendByCmd (ty : Byte) (payload : List Byte) (s : State) : Result :=
  whenIdle (.command ty payload) (sendCommand ty payload) s

/-- The host sends bytes by RAW (30_encoding.md R102, 43_dispatch_correlate.md R181). -/
def sendByRaw (bytes : List Byte) (s : State) : Result :=
  whenIdle (.verbatim bytes) (sendVerbatim bytes) s

/-- A frame term crosses its interface (30_encoding.md R86): sent by CMD from its type and payload (its
LEN and its CRC are ENC's to make and no operands of CMD), sent verbatim by RAW, or supplied by the
transport. Log entry 11. -/
def frameCrosses (via : Via) (ty len : Byte) (rest : List Byte) (s : State) : Result :=
  match via with
  | .cmd => sendByCmd ty rest.dropLast s
  | .raw => sendByRaw (frameBytes ty len rest) s
  | .rx => .next (deliver (frameBytes ty len rest) s)

/-- A pseudo-operation that returns a value (44_device_operations.md R210): one CMD, and the caller
waits for what it returns. Log entry 13. -/
def commandThenCollect (k : ReturnKind) (ty : Byte) (payload : List Byte) (s : State) : Result :=
  sendCommand ty payload (post (.collect k) s)

end Sys2Proof.Machine
end

