-- ==== Sys2Proof/Machine/Frame.lean ====
section
/-! DEFINITION. The FRAME rows (30_encoding.md R87 to R97): a frame of the row's type crosses the
interface its term names. "The engine treats every one of these codes, and every other TYPE value, as
plain data", so all of them share `frameCrosses`; COR alone looks at a type, in the completion step. -/

namespace Sys2Proof.Machine

/-- MAC (30_encoding.md R87). -/
def execFrMac (via : Via) (len : Byte) (rest : List Byte) (s : State) : Result :=
  frameCrosses via Config.tyMac len rest s

/-- VERSION (30_encoding.md R88). -/
def execFrVersion (via : Via) (len : Byte) (rest : List Byte) (s : State) : Result :=
  frameCrosses via Config.tyVersion len rest s

/-- SET_TX_MODE (30_encoding.md R89). -/
def execFrSetTxMode (via : Via) (len : Byte) (rest : List Byte) (s : State) : Result :=
  frameCrosses via Config.tySetTxMode len rest s

/-- TX_POWER (30_encoding.md R90). -/
def execFrTxPower (via : Via) (len : Byte) (rest : List Byte) (s : State) : Result :=
  frameCrosses via Config.tyTxPower len rest s

/-- RADIO_PARAM (30_encoding.md R91). -/
def execFrRadioParam (via : Via) (len : Byte) (rest : List Byte) (s : State) : Result :=
  frameCrosses via Config.tyRadioParam len rest s

/-- OP_MODE (30_encoding.md R92). -/
def execFrOpMode (via : Via) (len : Byte) (rest : List Byte) (s : State) : Result :=
  frameCrosses via Config.tyOpMode len rest s

/-- APP_DATA (30_encoding.md R93). -/
def execFrAppData (via : Via) (len : Byte) (rest : List Byte) (s : State) : Result :=
  frameCrosses via Config.tyAppData len rest s

/-- CH_SPACE_SET (30_encoding.md R94). -/
def execFrChSpaceSet (via : Via) (len : Byte) (rest : List Byte) (s : State) : Result :=
  frameCrosses via Config.tyChSpaceSet len rest s

/-- CH_SPACE_QRY (30_encoding.md R95). -/
def execFrChSpaceQry (via : Via) (len : Byte) (rest : List Byte) (s : State) : Result :=
  frameCrosses via Config.tyChSpaceQry len rest s

/-- ERROR (30_encoding.md R96). -/
def execFrError (via : Via) (len : Byte) (rest : List Byte) (s : State) : Result :=
  frameCrosses via Config.tyError len rest s

/-- FRAME.ANY (30_encoding.md R97): "neither illegal nor reserved for the engine". -/
def execFrAny (via : Via) (ty len : Byte) (rest : List Byte) (s : State) : Result :=
  frameCrosses via ty len rest s

end Sys2Proof.Machine
end

