-- ==== Sys2Proof/Machine/Func.lean ====
section
/-! DEFINITION. The FUNC rows: the pure unit functions, whose value is handed to the caller (log
entry 14), and CHK's two micro-operations on `chk_acc`. -/

namespace Sys2Proof.Machine

/-- 40_checksum.md R120. -/
def execChecksum8 (bytes : List Byte) (s : State) : Result :=
  .next (giveBack (.byte (checksum8 bytes)) s)

/-- 40_checksum.md R121. -/
def execChkLoad (v : Byte) (s : State) : Result := .next (chkLoadOp v s)

/-- 40_checksum.md R122. -/
def execChkAdd (b : Byte) (s : State) : Result := .next (chkAddOp b s)

/-- 41_encode.md R130; a payload longer than R131's 253 bytes is refused. -/
def execEncodeCommand (ty : Byte) (payload : List Byte) (s : State) : Result :=
  if payload.length ≤ Config.maxPlen then .next (giveBack (.frame (encodeFrame ty payload)) s)
  else .refused .plenOutOfRange

/-- 42_decode.md R159. -/
def execDecode (stream : List Byte) (s : State) : Result :=
  .next (giveBack (.decoded (decodeStream stream)) s)

/-- 43_dispatch_correlate.md R182. -/
def execCorrelate (decStatus : RxStatus) (reqType rspType : Byte) (s : State) : Result :=
  .next (giveBack (.status (correlateTypes decStatus reqType rspType)) s)

end Sys2Proof.Machine
end

