-- ==== Sys2Proof/Machine/HostOp.lean ====
section
/-! DEFINITION. The HOSTOP rows: what a host write of CTRL.OPSEL asks for (30_encoding.md R99, R100;
43_dispatch_correlate.md R180, R181). While the engine is busy the write waits (20_memory.md R71). -/

namespace Sys2Proof.Machine

/-- OPSEL 0 (30_encoding.md R99): "the write has no effect of any kind". -/
def execNop (s : State) : Result := whenIdle (.write 0 0) .next s

/-- OPSEL 1 (43_dispatch_correlate.md R180). -/
def execCmd (s : State) : Result := whenIdle (.write 0 1) startCmd s

/-- OPSEL 2 (43_dispatch_correlate.md R181). -/
def execRaw (s : State) : Result := whenIdle (.write 0 2) startRaw s

/-- OPSEL 3 (30_encoding.md R100): "a host write of it is `refuse`". -/
def execOpselReserved (_s : State) : Result := .refused .opselReserved

end Sys2Proof.Machine
end

