-- ==== Sys2Proof/Machine/Pseudo.lean ====
section
/-! DEFINITION. The PSEUDO rows, host software (44_device_operations.md): each computes a type and a
payload and makes at most one CMD, which waits while the engine is busy. Log entry 13. -/

namespace Sys2Proof.Machine

/-- 44_device_operations.md R211. -/
def execGetProtocolVersion (s : State) : Result :=
  whenIdle (.call .getProtocolVersion) (commandThenCollect .version Config.tyVersion []) s

/-- 44_device_operations.md R212. -/
def execSetOperatingMode (mode : OperatingMode) (s : State) : Result :=
  whenIdle (.call (.setOperatingMode mode))
    (commandThenCollect .status Config.tyOpMode (operatingModePayload mode)) s

/-- 44_device_operations.md R213. -/
def execSetTxPower (dB : Int) (s : State) : Result :=
  whenIdle (.call (.setTxPower dB))
    (commandThenCollect .status Config.tyTxPower (txPowerPayload dB)) s

/-- 44_device_operations.md R214. -/
def execSetChannelSpacing (kHz : Int) (s : State) : Result :=
  whenIdle (.call (.setChannelSpacing kHz))
    (commandThenCollect .status Config.tyChSpaceSet (channelSpacingPayload kHz)) s

/-- 44_device_operations.md R215; the type is the one the registry names SET_TX_MODE
(90_conflicts.md C7). -/
def execSetFrequency (hz channelCount : Int) (step : FreqStep) (s : State) : Result :=
  whenIdle (.call (.setFrequency hz channelCount step))
    (commandThenCollect .status Config.tySetTxMode (frequencyPayload hz channelCount step)) s

/-- 44_device_operations.md R216; the type is the one the registry names RADIO_PARAM
(90_conflicts.md C7). -/
def execSetTxMode (mode : TxMode) (s : State) : Result :=
  whenIdle (.call (.setTxMode mode))
    (commandThenCollect .status Config.tyRadioParam (txModePayload mode)) s

/-- 44_device_operations.md R217: an empty input starts no operation at all; nothing is returned
(90_conflicts.md C11). -/
def execTransmitApplicationData (bytes : List Byte) (s : State) : Result :=
  if bytes = [] then .next s
  else whenIdle (.call (.transmitApplicationData bytes))
    (sendCommand Config.tyAppData (appDataPayload bytes)) s

end Sys2Proof.Machine
end

