-- ==== Sys2Proof/Machine/RxStep.lean ====
section
/-! DEFINITION. The STEP rows of DEC (42_decode.md R151 to R156) and the completion step
(43_dispatch_correlate.md R185). The byte-taking steps share `rxStep`; each act below is what a step
does with the byte it has read. -/

namespace Sys2Proof.Machine

/-- 42_decode.md R151, the byte `b` taken. -/
def syncByte (b : Byte) (s : State) : State :=
  if b = Config.preamble0 then { chkLoadOp 0xFF s with rxState := .secondPreamble }
  else if s.syncCnt.toNat = Config.syncLimit then raiseStatus .timeout s
  else { s with syncCnt := s.syncCnt + 1 }

/-- 42_decode.md R152, the byte `b` taken. -/
def secondPreambleByte (b : Byte) (s : State) : State :=
  if b = Config.preamble1 then { chkAddOp Config.preamble1 s with rxState := .length }
  else raiseStatus .formatErr s

/-- 42_decode.md R153, the byte `b` taken. -/
def lengthByte (b : Byte) (s : State) : State :=
  if b.toNat < Config.minLen then raiseStatus .formatErr { s with rlen := b }
  else { chkAddOp b s with rlen := b, rxIdx := 0, rxState := .payload }

/-- 42_decode.md R154, where the byte goes: the first span byte is TYPE, the rest is payload. -/
def storeSpanByte (b : Byte) (s : State) : State :=
  if s.rxIdx = 0 then { s with rtype := b }
  else { s with rxbuf := s.rxbuf.writeByte (s.rxIdx.toNat - 1) b }

/-- 42_decode.md R154, the byte `b` taken. -/
def payloadByte (b : Byte) (s : State) : State :=
  let t := storeSpanByte b (chkAddOp b s)
  if s.rxIdx.toNat + 2 = s.rlen.toNat then { t with rxState := .crc }
  else { t with rxIdx := s.rxIdx + 1 }

/-- 42_decode.md R155, the byte `b` taken; it is not added to `chk_acc`. -/
def crcByte (b : Byte) (s : State) : State := { s with rcrc := b, rxState := .validate }

/-- RX.SYNC (42_decode.md R151). -/
def execRxSync (s : State) : Result := rxStep .sync syncByte s

/-- RX.SECOND_PREAMBLE (42_decode.md R152). -/
def execRxSecondPreamble (s : State) : Result := rxStep .secondPreamble secondPreambleByte s

/-- RX.LENGTH (42_decode.md R153). -/
def execRxLength (s : State) : Result := rxStep .length lengthByte s

/-- RX.PAYLOAD (42_decode.md R154). -/
def execRxPayload (s : State) : Result := rxStep .payload payloadByte s

/-- RX.CRC (42_decode.md R155). -/
def execRxCrc (s : State) : Result := rxStep .crc crcByte s

/-- RX.VALIDATE (42_decode.md R156): takes no byte. -/
def execRxValidate (s : State) : Result :=
  if s.phase = .rx ∧ s.rxState = .validate then
    .next (raiseStatus (if s.chkAcc = s.rcrc then .ok else .checksumErr) s)
  else .fault .notEnabled

/-- COMPLETE (43_dispatch_correlate.md R185). -/
def execComplete (s : State) : Result :=
  if s.phase = .rx ∧ s.rxState = .terminal then .next (completeOp s) else .fault .notEnabled

end Sys2Proof.Machine
end

