-- ==== Sys2Proof/Machine/TxStep.lean ====
section
/-! DEFINITION. The STEP rows of the transmit phase (41_encode.md R132 to R140): one byte handed to the
transport a step, none of which can block. -/

namespace Sys2Proof.Machine

/-- TX.CMD.PREAMBLE0 (41_encode.md R133). -/
def execTxCmdPreamble0 (s : State) : Result :=
  if s.txCmdAt 0 then .next (txCmdByte Config.preamble0 s) else .fault .notEnabled

/-- TX.CMD.PREAMBLE1 (41_encode.md R134). -/
def execTxCmdPreamble1 (s : State) : Result :=
  if s.txCmdAt 1 then .next (txCmdByte Config.preamble1 s) else .fault .notEnabled

/-- TX.CMD.LEN (41_encode.md R135). The start step has kept PLEN within R131's domain; outside it
"a model gives it no meaning; in particular it must not assume that LEN wraps". -/
def execTxCmdLen (s : State) : Result :=
  if s.txCmdAt 2 then
    if s.plen.toNat ≤ Config.maxPlen then .next (txCmdByte (lenByte s.plen.toNat) s)
    else .refused .plenOutOfRange
  else .fault .notEnabled

/-- TX.CMD.TYPE (41_encode.md R136), with the capture of R141. -/
def execTxCmdType (s : State) : Result :=
  if s.txCmdAt 3 then .next { txCmdByte s.txtype s with reqType := s.txtype }
  else .fault .notEnabled

/-- TX.CMD.PAYLOAD (41_encode.md R137): `TXBUF[tx_pos - 4]`. -/
def execTxCmdPayload (s : State) : Result :=
  if s.phase = .tx ∧ s.op = .cmd ∧ 4 ≤ s.txPos.toNat ∧ s.txPos.toNat ≤ s.plen.toNat + 3 then
    .next (txCmdByte (readCell s.txbuf (s.txPos.toNat - 4) s).1
      (readCell s.txbuf (s.txPos.toNat - 4) s).2)
  else .fault .notEnabled

/-- TX.CMD.CRC (41_encode.md R138), the last step: `chk_acc` goes out and is not added; then R139. -/
def execTxCmdCrc (s : State) : Result :=
  if s.txCmdAt (s.plen.toNat + 4) then .next (decoderEntry (txWrite s.chkAcc s))
  else .fault .notEnabled

/-- One byte of a verbatim frame (41_encode.md R140), with the capture of R141. -/
def txRawByteOp (b : Byte) (s : State) : State :=
  let t := { txWrite b s with reqType := if s.txPos.toNat = 3 then b else s.reqType }
  if s.txPos.toNat + 1 = s.rawlen.toNat then decoderEntry t else { t with txPos := s.txPos + 1 }

/-- TX.RAW.BYTE (41_encode.md R140): `TXBUF[tx_pos]`; CHK is not used. -/
def execTxRawByte (s : State) : Result :=
  if s.phase = .tx ∧ s.op = .raw then
    .next (txRawByteOp (readCell s.txbuf s.txPos.toNat s).1 (readCell s.txbuf s.txPos.toNat s).2)
  else .fault .notEnabled

end Sys2Proof.Machine
end

