-- ==== Sys2Proof/Machine/Dispatch.lean ====
section
/-! DEFINITION. One arm for each instruction: a direct call of its meaning. -/

namespace Sys2Proof.Machine

def exec (i : Instr) (s : State) : Host.Outcome State Fault Refusal :=
  match i with
  | .nop => Sys2Proof.Machine.execNop s
  | .cmd => Sys2Proof.Machine.execCmd s
  | .raw => Sys2Proof.Machine.execRaw s
  | .opselReserved => Sys2Proof.Machine.execOpselReserved s
  | .frMac via len rest => Sys2Proof.Machine.execFrMac via len rest s
  | .frVersion via len rest => Sys2Proof.Machine.execFrVersion via len rest s
  | .frSetTxMode via len rest => Sys2Proof.Machine.execFrSetTxMode via len rest s
  | .frTxPower via len rest => Sys2Proof.Machine.execFrTxPower via len rest s
  | .frRadioParam via len rest => Sys2Proof.Machine.execFrRadioParam via len rest s
  | .frOpMode via len rest => Sys2Proof.Machine.execFrOpMode via len rest s
  | .frAppData via len rest => Sys2Proof.Machine.execFrAppData via len rest s
  | .frChSpaceSet via len rest => Sys2Proof.Machine.execFrChSpaceSet via len rest s
  | .frChSpaceQry via len rest => Sys2Proof.Machine.execFrChSpaceQry via len rest s
  | .frError via len rest => Sys2Proof.Machine.execFrError via len rest s
  | .frAny via ty len rest => Sys2Proof.Machine.execFrAny via ty len rest s
  | .checksum8 bytes => Sys2Proof.Machine.execChecksum8 bytes s
  | .chkLoad v => Sys2Proof.Machine.execChkLoad v s
  | .chkAdd b => Sys2Proof.Machine.execChkAdd b s
  | .encodeCommand ty payload => Sys2Proof.Machine.execEncodeCommand ty payload s
  | .decode stream => Sys2Proof.Machine.execDecode stream s
  | .correlate decStatus reqType rspType => Sys2Proof.Machine.execCorrelate decStatus reqType rspType s
  | .txCmdPreamble0 => Sys2Proof.Machine.execTxCmdPreamble0 s
  | .txCmdPreamble1 => Sys2Proof.Machine.execTxCmdPreamble1 s
  | .txCmdLen => Sys2Proof.Machine.execTxCmdLen s
  | .txCmdType => Sys2Proof.Machine.execTxCmdType s
  | .txCmdPayload => Sys2Proof.Machine.execTxCmdPayload s
  | .txCmdCrc => Sys2Proof.Machine.execTxCmdCrc s
  | .txRawByte => Sys2Proof.Machine.execTxRawByte s
  | .rxSync => Sys2Proof.Machine.execRxSync s
  | .rxSecondPreamble => Sys2Proof.Machine.execRxSecondPreamble s
  | .rxLength => Sys2Proof.Machine.execRxLength s
  | .rxPayload => Sys2Proof.Machine.execRxPayload s
  | .rxCrc => Sys2Proof.Machine.execRxCrc s
  | .rxValidate => Sys2Proof.Machine.execRxValidate s
  | .complete => Sys2Proof.Machine.execComplete s
  | .getProtocolVersion => Sys2Proof.Machine.execGetProtocolVersion s
  | .setOperatingMode mode => Sys2Proof.Machine.execSetOperatingMode mode s
  | .setTxPower dB => Sys2Proof.Machine.execSetTxPower dB s
  | .setChannelSpacing kHz => Sys2Proof.Machine.execSetChannelSpacing kHz s
  | .setFrequency hz channelCount step => Sys2Proof.Machine.execSetFrequency hz channelCount step s
  | .setTxMode mode => Sys2Proof.Machine.execSetTxMode mode s
  | .transmitApplicationData bytes => Sys2Proof.Machine.execTransmitApplicationData bytes s

end Sys2Proof.Machine
end

