-- ==== Sys2Proof/Machine/Flags.lean ====
section
/-! DEFINITION. The two flags `status` and `resp_valid` as STAT shows them (10_state.md R22, R36), and
when the response registers may be relied on (R26). -/

namespace Sys2Proof.Machine

/-- 30_encoding.md R98: the numeric codes of the statuses, for STAT.STATUS. -/
def statusCode : RxStatus → BitVec 3
  | .ok => 0
  | .timeout => 1
  | .sizeErr => 2
  | .zetagErr => 3
  | .checksumErr => 4
  | .formatErr => 5

/-- STAT.BUSY (10_state.md R22): 1 exactly when `phase` is not IDLE. -/
def State.busy (s : State) : Bool := decide (s.phase ≠ .idle)

/-- The STATUS field as the host reads it (10_state.md R22): any while `resp_valid = 0`. Log entry 6. -/
def State.statusField (s : State) : BitVec 3 :=
  if s.respValid then statusCode s.status else Config.freeBits 3 s.freeCtr

/-- STAT (10_state.md R22): BUSY bit 0, RESP_VALID bit 1, STATUS bits [4:2], the bits above 0. -/
def State.statWord (s : State) : HostWord :=
  (s.statusField ++ BitVec.ofBool s.respValid ++ BitVec.ofBool s.busy).setWidth 16

/-- The response registers hold a response (10_state.md R26, 43_dispatch_correlate.md R188): a
completed operation whose status is OK or was overridden by COR. COR alone gives ZETAG_ERR, and a
CHECKSUM_ERR is COR's exactly when VALIDATE found the two checksums equal. Log entry 6. -/
def State.responseReliable (s : State) : Bool :=
  s.respValid &&
    match s.status with
    | .ok | .zetagErr => true
    | .checksumErr => s.chkAcc == s.rcrc
    | .timeout | .sizeErr | .formatErr => false

/-- The payload bytes `RXBUF[0..RLEN-2)` (10_state.md R27, R43). -/
def State.responsePayload (s : State) : List Byte :=
  (List.range (s.rlen.toNat - 2)).map fun i =>
    (s.rxbuf.readByte i).getD (Config.freeBits 8 (s.freeCtr + i))

/-- The ReceivedResponse (10_state.md R43), its fields left out where they are not to be relied on. -/
def State.response (s : State) : Response where
  status := s.status
  fields :=
    if s.responseReliable then some ⟨s.rlen, s.rtype, s.responsePayload, s.rcrc⟩ else none

end Sys2Proof.Machine
end

