-- ==== Sys2Proof/Machine/HostAccess.lean ====
section
/-! DEFINITION. The host's register and buffer accesses (10_state.md R42): reads have no side effect
on the engine (20_memory.md R73); a read that the spec leaves any draws a free value (log entry 6);
an access that makes no sense is refused (92_eei_decisions.md D22). A write of CTRL is fetched as an
instruction and is not here. -/

namespace Sys2Proof.Machine

/-- A register read that answers its value when `reliable` holds and any byte otherwise. -/
def readResponseByte (v : Byte) (reliable : Bool) (s : State) : State :=
  if reliable then giveBack (.byte v) s
  else giveBack (.byte (Config.freeBits 8 s.freeCtr)) (s.draw 1)

/-- A host read of STAT (10_state.md R22): STATUS is any while `resp_valid = 0`. -/
def readStat (s : State) : State :=
  giveBack (.word s.statWord) (if s.respValid then s else s.draw 1)

/-- A host read of register `n` (10_state.md R21 to R26, R42). -/
def readHreg (n : Nat) (s : State) : Result :=
  match n with
  | 0 => .next (giveBack (.word 0) s)
  | 1 => .next (readStat s)
  | 2 => .next (giveBack (.byte s.txtype) s)
  | 3 => .next (giveBack (.byte s.plen) s)
  | 4 => .next (giveBack (.word (s.rawlen.setWidth 16)) s)
  | 5 => .next (readResponseByte s.rlen s.responseReliable s)
  | 6 => .next (readResponseByte s.rtype s.responseReliable s)
  | 7 => .next (readResponseByte s.rcrc s.responseReliable s)
  | _ => .refused .hregOutOfRange

/-- A host write of register `n` (10_state.md R22 to R26, R42). A register takes the low bits of the
word (log entry 7). CTRL "holds no state" (R21): what its word asks for is fetched as an instruction
(Fetch.lean), and nothing of it is kept here. -/
def writeHreg (n : Nat) (v : HostWord) (s : State) : Result :=
  match n with
  | 2 => .next { s with txtype := v.setWidth 8 }
  | 3 => .next { s with plen := v.setWidth 8 }
  | 4 => .next { s with rawlen := v.setWidth 9 }
  | 0 => .next s
  | 1 | 5 | 6 | 7 => .refused .readOnlyRegister
  | _ => .refused .hregOutOfRange

/-- A host write of `TXBUF[i]` (10_state.md R27, R42). -/
def hostWriteTxbuf (i : Nat) (b : Byte) (s : State) : Result :=
  if i < Config.txbufSize then .next { s with txbuf := s.txbuf.writeByte i b }
  else .refused .bufferIndexOutOfRange

/-- A host read of `TXBUF[i]` (10_state.md R27, R42). -/
def hostReadTxbuf (i : Nat) (s : State) : Result :=
  if i < Config.txbufSize then
    .next (giveBack (.byte (readCell s.txbuf i s).1) (readCell s.txbuf i s).2)
  else .refused .bufferIndexOutOfRange

/-- A host write of RXBUF is refused (10_state.md R27, R42; 92_eei_decisions.md D22). -/
def hostWriteRxbuf (i : Nat) : Result :=
  if i < Config.rxbufSize then .refused .readOnlyRegister else .refused .bufferIndexOutOfRange

/-- A host read of `RXBUF[i]` (10_state.md R26, R27): the payload byte of a response that may be
relied on; any otherwise, and from index `RLEN - 2` upward. -/
def hostReadRxbuf (i : Nat) (s : State) : Result :=
  if i < Config.rxbufSize then
    if s.responseReliable ∧ i + 2 < s.rlen.toNat then
      .next (giveBack (.byte (readCell s.rxbuf i s).1) (readCell s.rxbuf i s).2)
    else .next (giveBack (.byte (Config.freeBits 8 s.freeCtr)) (s.draw 1))
  else .refused .bufferIndexOutOfRange

/-- The caller of a pseudo-operation takes what it returns: the status of its CMD
(44_device_operations.md R210), or the protocol version packed from the response (R211, left open:
VERSION_PACK). A status that no completed operation has set is any. Log entries 13 and 15. -/
def collectReturn (k : ReturnKind) (s : State) : State :=
  match k with
  | .status =>
    if s.respValid then giveBack (.status s.status) s
    else giveBack (.status (Config.freeStatus s.freeCtr)) (s.draw 1)
  | .version =>
    giveBack (.byte (Config.versionPack s.response)) (s.draw (s.rlen.toNat - 2))

end Sys2Proof.Machine
end

