-- ==== Sys2Proof/Machine/Fetch.lean ====
section
/-! DEFINITION. Which instruction runs next: the engine's own step, chosen by its sequencing state
(41_encode.md R132, 42_decode.md R150), or the host's next act, decoded (30_encoding.md R99, R104);
and whose move it is (20_memory.md R67, R71). -/

namespace Sys2Proof.Machine

/-- 41_encode.md R132: the CMD transmit step at a position. -/
def txCmdInstr (plen pos : Nat) : Option Instr :=
  if pos = 0 then some .txCmdPreamble0
  else if pos = 1 then some .txCmdPreamble1
  else if pos = 2 then some .txCmdLen
  else if pos = 3 then some .txCmdType
  else if pos ≤ plen + 3 then some .txCmdPayload
  else if pos = plen + 4 then some .txCmdCrc
  else none

/-- 42_decode.md R150: the step of a receive state. -/
def rxInstr : RxState → Instr
  | .sync => .rxSync
  | .secondPreamble => .rxSecondPreamble
  | .length => .rxLength
  | .payload => .rxPayload
  | .crc => .rxCrc
  | .validate => .rxValidate
  | .terminal => .complete

/-- The engine's next step; none while it is idle (70_reset_and_hazards.md R260), and none at a
transmit position past the last one, which no run reaches (10_state.md R41). -/
def engineInstr (s : State) : Option Instr :=
  match s.phase, s.op with
  | .idle, _ => none
  | .tx, .cmd => txCmdInstr s.plen.toNat s.txPos.toNat
  | .tx, .raw => some .txRawByte
  | .rx, _ => some (rxInstr s.rxState)

/-- The engine takes its step. An idle engine "does nothing until the host starts an operation"
(70_reset_and_hazards.md R260). -/
def engineMove (s : State) : Result :=
  match engineInstr s with
  | some i => exec i s
  | none => if s.phase = .idle then .next s else .fault .notEnabled

/-- Fetch, decode, execute: bytes that are exactly one frame run as the FRAME row they decode to. No
interface checks the bytes it is given (41_encode.md R140, 30_encoding.md R101), so any others have the
effect `other`, the interface's own. Log entry 12. -/
def runFrame (via : Via) (bytes : List Byte) (other : State → Result) (s : State) : Result :=
  match decode (.frame via bytes) with
  | .ok (i, []) => exec i s
  | .ok (_, _ :: _) | .error _ => other s

/-- One act of the host, already taken off its list. -/
def runItem (item : HostItem) (s : State) : Result :=
  match item with
  | .write 0 v => exec (decodeCtrl v) s
  | .write (n + 1) v => writeHreg (n + 1) v s
  | .read n => readHreg n s
  | .txbufWrite i b => hostWriteTxbuf i b s
  | .txbufRead i => hostReadTxbuf i s
  | .rxbufWrite i _ => hostWriteRxbuf i
  | .rxbufRead i => hostReadRxbuf i s
  | .command ty payload =>
    if payload.length ≤ Config.maxPlen then
      runFrame .cmd (encodeFrame ty payload) (sendByCmd ty payload) s
    else .refused .plenOutOfRange
  | .verbatim bytes => runFrame .raw bytes (sendByRaw bytes) s
  | .received bytes => runFrame .rx bytes (fun u => .next (deliver bytes u)) s
  | .call i => if i.hostCallable then exec i s else .refused .notHostCallable
  | .collect k => .next (collectReturn k s)

/-- What may proceed while the engine is busy: a read of STAT (20_memory.md R71), and bytes the
transport supplies (R67). -/
def HostItem.mayProceedBusy : HostItem → Bool
  | .read n => n == 1
  | .received _ => true
  | .write _ _ | .txbufWrite _ _ | .txbufRead _ | .rxbufWrite _ _ | .rxbufRead _ | .command _ _
  | .verbatim _ | .call _ | .collect _ => false

/-- The host's move: its next act, if it has one and need not wait (20_memory.md R71). -/
def hostMove (s : State) : Result :=
  match s.hostq with
  | [] => .next s
  | item :: rest =>
    if s.phase = .idle ∨ item.mayProceedBusy then runItem item { s with hostq := rest }
    else .next s

/-- One move of the machine: the agent whose turn is next, and where no turn is listed the engine
while it is busy, else the host. Log entry 3. -/
def move (s : State) : Result :=
  match s.sched with
  | [] => if s.phase = .idle then hostMove s else engineMove s
  | .host :: r => hostMove { s with sched := r }
  | .engine :: r => engineMove { s with sched := r }
  | .deliver b :: r => .next (deliver [b] { s with sched := r })
  | .reset :: r => .next (resetEngine { s with sched := r })

/-- A host act put first, the engine idle and the host's turn next: the very next move runs it. -/
def withHostItem (item : HostItem) (s : State) : State :=
  { s with hostq := item :: s.hostq, sched := .host :: s.sched, phase := .idle }

/-- The host act that hands over a code. -/
def codeItem : Code → HostItem
  | .ctrl v => .write 0 v
  | .frame .cmd bytes => .command (bytes.getD 3 0) (bytes.drop 4).dropLast
  | .frame .raw bytes => .verbatim bytes
  | .frame .rx bytes => .received bytes

end Sys2Proof.Machine
end

