-- ==== Sys2Proof/Machine/Step.lean ====
section
/-! DEFINITION. One step of the machine, and where a program's next instruction stands (log
entry 2). -/

namespace Sys2Proof.Machine

/-- One step (00_scope.md R11): one byte across an interface, or one internal action. -/
def step (s : State) : Host.Outcome State Fault Refusal := move s

/-- The state whose very next step fetches and runs the table word's instruction. -/
def State.withFetchWord (s : State) (nbits w : Nat) : State :=
  match tableCode nbits w with
  | none => s
  | some c => withHostItem (codeItem c) s

end Sys2Proof.Machine
end

