-- ==== Sys2Proof/Laws/Checksum.lean ====
section
/-! SUPPORT. The laws of `checksum8` that the other proofs cite (40_checksum.md R120). -/

namespace Sys2Proof.Machine

@[simp] theorem checksum8_nil : checksum8 [] = 0 := rfl

@[simp] theorem checksum8_cons (b : Byte) (r : List Byte) :
    checksum8 (b :: r) = b + checksum8 r := rfl

/-- One more byte added at the end is one CHK.ADD. -/
theorem checksum8_snoc (a : List Byte) (b : Byte) : checksum8 (a ++ [b]) = checksum8 a + b := by
  induction a with
  | nil => simp
  | cons c r ih => simp [ih, BitVec.add_assoc]

end Sys2Proof.Machine
end

