-- ==== Sys2Proof/Safety.lean ====
section
/-! DEFINITION. What counts as a safe state and a safe run: the invariants of 10_state.md R41, the
further facts the rules give beside them, and the terms claims use. -/

namespace Sys2Proof.Machine

/-- The buffer holds the bytes `p` at indices 0, 1, and so on. -/
def Memory.Holds (m : Memory) (p : List Byte) : Prop :=
  ∀ i, i < p.length → m.readByte i = p[i]?

/-- The span accepted so far (TYPE and `p`) stands in RTYPE and RXBUF, and `chk_acc` is the checksum
of the frame bytes from the `0xFF` on (10_state.md R41 (f)). -/
def State.SpanAccepted (s : State) (p : List Byte) : Prop :=
  s.rxbuf.Holds p ∧ s.chkAcc = checksum8 (frameHeader s.rlen s.rtype ++ p)

/-- A whole response stands in the response registers and RXBUF, and RCRC is the checksum of the rest
(42_decode.md R156, 10_state.md R27). -/
def State.ResponseHeld (s : State) : Prop :=
  ∃ p : List Byte, p.length + 2 = s.rlen.toNat ∧ s.SpanAccepted p ∧ s.chkAcc = s.rcrc

/-- The statuses DEC can end with (42_decode.md R158). -/
def decStatus (st : RxStatus) : Prop := st ≠ .sizeErr ∧ st ≠ .zetagErr

/-- The invariants. The letters are those of 10_state.md R41; the fields without one are further
facts of the same kind (log entry 20). -/
structure State.Inv (s : State) : Prop where
  /-- (a) -/
  idle_terminal : s.phase = .idle → s.rxState = .terminal
  /-- 10_state.md R33: `rx_state` rests at TERMINAL until a TX phase ends -/
  tx_terminal : s.phase = .tx → s.rxState = .terminal
  /-- (b), (c) -/
  busy_invalid : s.phase ≠ .idle → s.respValid = false
  /-- (b), with the domain of 41_encode.md R131 -/
  tx_cmd : s.phase = .tx → s.op = .cmd →
    s.txPos.toNat ≤ s.plen.toNat + 4 ∧ s.plen.toNat ≤ Config.maxPlen
  /-- (b), with the domain of 43_dispatch_correlate.md R181 -/
  tx_raw : s.phase = .tx → s.op = .raw →
    s.txPos.toNat + 1 ≤ s.rawlen.toNat ∧ Config.minRawlen ≤ s.rawlen.toNat ∧
      s.rawlen.toNat ≤ Config.txbufSize
  /-- (d) -/
  sync_bound : s.syncCnt.toNat ≤ Config.syncLimit
  /-- (e) -/
  len_range : s.rxState = .payload ∨ s.rxState = .crc ∨ s.rxState = .validate →
    Config.minLen ≤ s.rlen.toNat
  /-- (e) -/
  idx_range : s.rxState = .payload → s.rxIdx.toNat + 1 < s.rlen.toNat
  /-- the `0xFF` that SYNC accepted -/
  chk_second : s.rxState = .secondPreamble → s.chkAcc = checksum8 [Config.preamble0]
  /-- (f) -/
  chk_length : s.rxState = .length → s.chkAcc = checksum8 [Config.preamble0, Config.preamble1]
  /-- (f), before TYPE -/
  chk_first : s.rxState = .payload → s.rxIdx = 0 →
    s.chkAcc = checksum8 [Config.preamble0, Config.preamble1, s.rlen]
  /-- (f), after TYPE -/
  chk_payload : s.rxState = .payload → s.rxIdx ≠ 0 →
    ∃ p : List Byte, p.length + 1 = s.rxIdx.toNat ∧ s.SpanAccepted p
  /-- (f), the span complete -/
  chk_span : s.rxState = .crc ∨ s.rxState = .validate →
    ∃ p : List Byte, p.length + 2 = s.rlen.toNat ∧ s.SpanAccepted p
  /-- 42_decode.md R158: what DEC ended with -/
  dec_status : s.phase = .rx → s.rxState = .terminal → decStatus s.status
  /-- 42_decode.md R156: OK only for a frame whose checksum is right -/
  dec_ok : s.phase = .rx → s.rxState = .terminal → s.status = .ok → s.ResponseHeld
  /-- 42_decode.md R156: CHECKSUM_ERR only for a frame whose checksum is wrong -/
  dec_checksum : s.phase = .rx → s.rxState = .terminal → s.status = .checksumErr →
    s.chkAcc ≠ s.rcrc
  /-- (g) -/
  valid_idle : s.respValid = true → s.phase = .idle ∧ s.status ≠ .sizeErr
  /-- 43_dispatch_correlate.md R188: what a response that may be relied on holds -/
  response_held : s.responseReliable = true → s.ResponseHeld
  /-- the canonical form of TXBUF and RXBUF -/
  txbuf_wf : s.txbuf.wf Config.txbufSize = true
  rxbuf_wf : s.rxbuf.wf Config.rxbufSize = true

/-- The engine, taking its step, neither finds itself without an enabled step nor meets a situation
the spec gives no meaning: it goes on, or it waits for a byte. -/
def engineSafe (r : Result) : Prop :=
  r = .fault .stuck ∨ ∃ t, r = .next t

/-- `n` steps, stopping at the first fault or refusal: `Host.Core.run` of this machine (Laws/Run.lean),
over its own state type. -/
def runSteps : Nat → State → Result
  | 0, s => .next s
  | n + 1, s =>
    match step s with
    | .next t => runSteps n t
    | .fault f => .fault f
    | .refused r => .refused r

end Sys2Proof.Machine
end

