-- ==== Sys2Proof/Laws/Memory.lean ====
section
/-! SUPPORT. The laws of the byte buffers: read after write, and every operation keeps the canonical
form. -/

namespace Sys2Proof.Machine

variable (m : Memory)

@[simp] theorem Memory.readByte_writeByte_same (i : Nat) (b : Byte) :
    (m.writeByte i b).readByte i = some b := by
  induction m with
  | nil => simp [Memory.writeByte, Memory.readByte]
  | cons c r ih =>
    obtain ⟨a, v⟩ := c
    unfold Memory.writeByte
    split
    · simp [Memory.readByte]
    · split
      · simp [Memory.readByte]
      · simp [Memory.readByte, *]

theorem Memory.readByte_writeByte_other {i j : Nat} (h : j ≠ i) (b : Byte) :
    (m.writeByte i b).readByte j = m.readByte j := by
  induction m with
  | nil => simp [Memory.writeByte, Memory.readByte, h]
  | cons c r ih =>
    obtain ⟨a, v⟩ := c
    unfold Memory.writeByte
    split
    · simp [Memory.readByte, h]
    · split
      · subst_vars; simp [Memory.readByte, h]
      · simp [Memory.readByte, ih]

theorem Memory.readByte_writeByte (i j : Nat) (b : Byte) :
    (m.writeByte i b).readByte j = if j = i then some b else m.readByte j := by
  by_cases h : j = i
  · subst h; simp
  · simp [h, m.readByte_writeByte_other h]

theorem Memory.wf_iff (size : Nat) :
    m.wf size = true ↔ (m.Pairwise fun a b => a.1 < b.1) ∧ ∀ c ∈ m, c.1 < size := by
  simp [Memory.wf]

@[simp] theorem Memory.wf_nil (size : Nat) : Memory.wf size [] = true := rfl

/-- The indices of a buffer after a write: those it had, and the one written. -/
theorem Memory.mem_writeByte {i : Nat} {b : Byte} {c : Host.Cell} (h : c ∈ m.writeByte i b) :
    c = (i, b) ∨ c ∈ m := by
  induction m with
  | nil => simpa [Memory.writeByte] using h
  | cons d r ih =>
    obtain ⟨a, v⟩ := d
    unfold Memory.writeByte at h
    split at h
    · simpa using h
    · split at h
      · simp only [List.mem_cons] at h ⊢
        rcases h with h | h
        · exact .inl h
        · exact .inr (.inr h)
      · simp only [List.mem_cons] at h ⊢
        rcases h with h | h
        · exact .inr (.inl h)
        · rcases ih h with h | h
          · exact .inl h
          · exact .inr (.inr h)

theorem Memory.wf_writeByte {size i : Nat} (hi : i < size) (b : Byte) (h : m.wf size = true) :
    (m.writeByte i b).wf size = true := by
  rw [Memory.wf_iff] at h ⊢
  obtain ⟨hp, hs⟩ := h
  constructor
  · clear hs
    induction m with
    | nil => simp [Memory.writeByte]
    | cons d r ih =>
      obtain ⟨a, v⟩ := d
      rw [List.pairwise_cons] at hp
      unfold Memory.writeByte
      split
      · rename_i hlt
        refine List.pairwise_cons.2 ⟨?_, List.pairwise_cons.2 hp⟩
        intro c hc
        rcases List.mem_cons.1 hc with rfl | hc
        · exact hlt
        · exact Nat.lt_trans hlt (hp.1 c hc)
      · split
        · rename_i _ heq
          exact List.pairwise_cons.2 ⟨by simpa [heq] using hp.1, hp.2⟩
        · rename_i hge hne
          refine List.pairwise_cons.2 ⟨?_, ih hp.2⟩
          intro c hc
          rcases Memory.mem_writeByte r hc with rfl | hc
          · show a < i
            omega
          · exact hp.1 c hc
  · intro c hc
    rcases Memory.mem_writeByte m hc with rfl | hc
    · exact hi
    · exact hs c hc

/-- Reading after a run of writes: the run's byte inside its range, the old byte outside. -/
theorem Memory.readByte_writeBytes (bs : List Byte) (i j : Nat) :
    (m.writeBytes i bs).readByte j =
      if i ≤ j ∧ j < i + bs.length then bs[j - i]? else m.readByte j := by
  induction bs generalizing m i with
  | nil =>
    simp only [Memory.writeBytes, List.length_nil, Nat.add_zero]
    rw [if_neg (by omega)]
  | cons b r ih =>
    simp only [Memory.writeBytes, ih, Memory.readByte_writeByte, List.length_cons]
    by_cases h : j = i
    · subst h; rw [if_neg (by omega), if_pos rfl, if_pos (by omega)]; simp
    · rw [if_neg h]
      by_cases h2 : i + 1 ≤ j ∧ j < i + 1 + r.length
      · rw [if_pos h2, if_pos (by omega)]
        obtain ⟨k, rfl⟩ : ∃ k, j = i + 1 + k := ⟨j - (i + 1), by omega⟩
        have e1 : i + 1 + k - (i + 1) = k := by omega
        have e2 : i + 1 + k - i = k + 1 := by omega
        rw [e1, e2, List.getElem?_cons_succ]
      · rw [if_neg h2, if_neg (by omega)]

theorem Memory.wf_writeBytes {size : Nat} (bs : List Byte) (i : Nat) (hi : i + bs.length ≤ size)
    (h : m.wf size = true) : (m.writeBytes i bs).wf size = true := by
  induction bs generalizing m i with
  | nil => exact h
  | cons b r ih =>
    simp only [List.length_cons] at hi
    exact ih _ _ (by omega) (Memory.wf_writeByte m (by omega) b h)

theorem Memory.holds_writeBytes (bs : List Byte) : (m.writeBytes 0 bs).Holds bs := by
  intro i hi
  rw [Memory.readByte_writeBytes, if_pos (by omega)]
  simp

theorem Memory.holds_nil : m.Holds [] := by
  intro i hi; simp at hi

/-- One more byte at the next index: the buffer holds one byte more. -/
theorem Memory.holds_snoc {p : List Byte} (h : m.Holds p) (b : Byte) :
    (m.writeByte p.length b).Holds (p ++ [b]) := by
  intro i hi
  rw [List.length_append, List.length_singleton] at hi
  rw [Memory.readByte_writeByte]
  by_cases e : i = p.length
  · subst e; simp
  · have hi' : i < p.length := by omega
    rw [if_neg e, h i hi', List.getElem?_append_left hi']

theorem Memory.Holds.get {p : List Byte} (h : m.Holds p) {i : Nat} (hi : i < p.length) :
    m.readByte i = some p[i] := by
  rw [h i hi]; exact List.getElem?_eq_getElem hi

/-- A read of a cell that holds a byte answers it and draws nothing. -/
theorem readCell_of_some {i : Nat} {b : Byte} (h : m.readByte i = some b) (s : State) :
    readCell m i s = (b, s) := by
  simp [readCell, h]

/-- A read of a cell that holds nothing answers a free value and draws it. -/
theorem readCell_of_none {i : Nat} (h : m.readByte i = none) (s : State) :
    readCell m i s = (Config.freeBits 8 s.freeCtr, s.draw 1) := by
  simp [readCell, h]

/-- All a cell read can do to the state: nothing, or draw one free value. -/
theorem readCell_state (i : Nat) (s : State) :
    (readCell m i s).2 = s ∨ (readCell m i s).2 = s.draw 1 := by
  unfold readCell; split <;> simp

end Sys2Proof.Machine
end

