-- ==== Sys2Proof/Laws/State.lean ====
section
/-! SUPPORT. One lemma a field for each update of the state, so that no later proof unfolds a record
update. -/

namespace Sys2Proof.Machine

variable (s : State)

@[simp] theorem draw_txtype (n : Nat) : (s.draw n).txtype = s.txtype := rfl
@[simp] theorem draw_plen (n : Nat) : (s.draw n).plen = s.plen := rfl
@[simp] theorem draw_rawlen (n : Nat) : (s.draw n).rawlen = s.rawlen := rfl
@[simp] theorem draw_rlen (n : Nat) : (s.draw n).rlen = s.rlen := rfl
@[simp] theorem draw_rtype (n : Nat) : (s.draw n).rtype = s.rtype := rfl
@[simp] theorem draw_rcrc (n : Nat) : (s.draw n).rcrc = s.rcrc := rfl
@[simp] theorem draw_txbuf (n : Nat) : (s.draw n).txbuf = s.txbuf := rfl
@[simp] theorem draw_rxbuf (n : Nat) : (s.draw n).rxbuf = s.rxbuf := rfl
@[simp] theorem draw_phase (n : Nat) : (s.draw n).phase = s.phase := rfl
@[simp] theorem draw_op (n : Nat) : (s.draw n).op = s.op := rfl
@[simp] theorem draw_txPos (n : Nat) : (s.draw n).txPos = s.txPos := rfl
@[simp] theorem draw_rxState (n : Nat) : (s.draw n).rxState = s.rxState := rfl
@[simp] theorem draw_syncCnt (n : Nat) : (s.draw n).syncCnt = s.syncCnt := rfl
@[simp] theorem draw_rxIdx (n : Nat) : (s.draw n).rxIdx = s.rxIdx := rfl
@[simp] theorem draw_reqType (n : Nat) : (s.draw n).reqType = s.reqType := rfl
@[simp] theorem draw_chkAcc (n : Nat) : (s.draw n).chkAcc = s.chkAcc := rfl
@[simp] theorem draw_status (n : Nat) : (s.draw n).status = s.status := rfl
@[simp] theorem draw_respValid (n : Nat) : (s.draw n).respValid = s.respValid := rfl
@[simp] theorem draw_txHist (n : Nat) : (s.draw n).txHist = s.txHist := rfl
@[simp] theorem draw_rxStream (n : Nat) : (s.draw n).rxStream = s.rxStream := rfl
@[simp] theorem draw_hostq (n : Nat) : (s.draw n).hostq = s.hostq := rfl
@[simp] theorem draw_sched (n : Nat) : (s.draw n).sched = s.sched := rfl
@[simp] theorem draw_returned (n : Nat) : (s.draw n).returned = s.returned := rfl
@[simp] theorem draw_freeCtr (n : Nat) : (s.draw n).freeCtr = s.freeCtr + n := rfl

@[simp] theorem txWrite_txtype (b : Byte) : (txWrite b s).txtype = s.txtype := rfl
@[simp] theorem txWrite_plen (b : Byte) : (txWrite b s).plen = s.plen := rfl
@[simp] theorem txWrite_rawlen (b : Byte) : (txWrite b s).rawlen = s.rawlen := rfl
@[simp] theorem txWrite_rlen (b : Byte) : (txWrite b s).rlen = s.rlen := rfl
@[simp] theorem txWrite_rtype (b : Byte) : (txWrite b s).rtype = s.rtype := rfl
@[simp] theorem txWrite_rcrc (b : Byte) : (txWrite b s).rcrc = s.rcrc := rfl
@[simp] theorem txWrite_txbuf (b : Byte) : (txWrite b s).txbuf = s.txbuf := rfl
@[simp] theorem txWrite_rxbuf (b : Byte) : (txWrite b s).rxbuf = s.rxbuf := rfl
@[simp] theorem txWrite_phase (b : Byte) : (txWrite b s).phase = s.phase := rfl
@[simp] theorem txWrite_op (b : Byte) : (txWrite b s).op = s.op := rfl
@[simp] theorem txWrite_txPos (b : Byte) : (txWrite b s).txPos = s.txPos := rfl
@[simp] theorem txWrite_rxState (b : Byte) : (txWrite b s).rxState = s.rxState := rfl
@[simp] theorem txWrite_syncCnt (b : Byte) : (txWrite b s).syncCnt = s.syncCnt := rfl
@[simp] theorem txWrite_rxIdx (b : Byte) : (txWrite b s).rxIdx = s.rxIdx := rfl
@[simp] theorem txWrite_reqType (b : Byte) : (txWrite b s).reqType = s.reqType := rfl
@[simp] theorem txWrite_chkAcc (b : Byte) : (txWrite b s).chkAcc = s.chkAcc := rfl
@[simp] theorem txWrite_status (b : Byte) : (txWrite b s).status = s.status := rfl
@[simp] theorem txWrite_respValid (b : Byte) : (txWrite b s).respValid = s.respValid := rfl
@[simp] theorem txWrite_txHist (b : Byte) : (txWrite b s).txHist = s.txHist ++ [b] := rfl
@[simp] theorem txWrite_rxStream (b : Byte) : (txWrite b s).rxStream = s.rxStream := rfl
@[simp] theorem txWrite_hostq (b : Byte) : (txWrite b s).hostq = s.hostq := rfl
@[simp] theorem txWrite_sched (b : Byte) : (txWrite b s).sched = s.sched := rfl
@[simp] theorem txWrite_returned (b : Byte) : (txWrite b s).returned = s.returned := rfl
@[simp] theorem txWrite_freeCtr (b : Byte) : (txWrite b s).freeCtr = s.freeCtr := rfl

@[simp] theorem deliver_txtype (bs : List Byte) : (deliver bs s).txtype = s.txtype := rfl
@[simp] theorem deliver_plen (bs : List Byte) : (deliver bs s).plen = s.plen := rfl
@[simp] theorem deliver_rawlen (bs : List Byte) : (deliver bs s).rawlen = s.rawlen := rfl
@[simp] theorem deliver_rlen (bs : List Byte) : (deliver bs s).rlen = s.rlen := rfl
@[simp] theorem deliver_rtype (bs : List Byte) : (deliver bs s).rtype = s.rtype := rfl
@[simp] theorem deliver_rcrc (bs : List Byte) : (deliver bs s).rcrc = s.rcrc := rfl
@[simp] theorem deliver_txbuf (bs : List Byte) : (deliver bs s).txbuf = s.txbuf := rfl
@[simp] theorem deliver_rxbuf (bs : List Byte) : (deliver bs s).rxbuf = s.rxbuf := rfl
@[simp] theorem deliver_phase (bs : List Byte) : (deliver bs s).phase = s.phase := rfl
@[simp] theorem deliver_op (bs : List Byte) : (deliver bs s).op = s.op := rfl
@[simp] theorem deliver_txPos (bs : List Byte) : (deliver bs s).txPos = s.txPos := rfl
@[simp] theorem deliver_rxState (bs : List Byte) : (deliver bs s).rxState = s.rxState := rfl
@[simp] theorem deliver_syncCnt (bs : List Byte) : (deliver bs s).syncCnt = s.syncCnt := rfl
@[simp] theorem deliver_rxIdx (bs : List Byte) : (deliver bs s).rxIdx = s.rxIdx := rfl
@[simp] theorem deliver_reqType (bs : List Byte) : (deliver bs s).reqType = s.reqType := rfl
@[simp] theorem deliver_chkAcc (bs : List Byte) : (deliver bs s).chkAcc = s.chkAcc := rfl
@[simp] theorem deliver_status (bs : List Byte) : (deliver bs s).status = s.status := rfl
@[simp] theorem deliver_respValid (bs : List Byte) : (deliver bs s).respValid = s.respValid := rfl
@[simp] theorem deliver_txHist (bs : List Byte) : (deliver bs s).txHist = s.txHist := rfl
@[simp] theorem deliver_rxStream (bs : List Byte) :
    (deliver bs s).rxStream = s.rxStream ++ bs := rfl
@[simp] theorem deliver_hostq (bs : List Byte) : (deliver bs s).hostq = s.hostq := rfl
@[simp] theorem deliver_sched (bs : List Byte) : (deliver bs s).sched = s.sched := rfl
@[simp] theorem deliver_returned (bs : List Byte) : (deliver bs s).returned = s.returned := rfl
@[simp] theorem deliver_freeCtr (bs : List Byte) : (deliver bs s).freeCtr = s.freeCtr := rfl

@[simp] theorem chkLoadOp_txtype (v : Byte) : (chkLoadOp v s).txtype = s.txtype := rfl
@[simp] theorem chkLoadOp_plen (v : Byte) : (chkLoadOp v s).plen = s.plen := rfl
@[simp] theorem chkLoadOp_rawlen (v : Byte) : (chkLoadOp v s).rawlen = s.rawlen := rfl
@[simp] theorem chkLoadOp_rlen (v : Byte) : (chkLoadOp v s).rlen = s.rlen := rfl
@[simp] theorem chkLoadOp_rtype (v : Byte) : (chkLoadOp v s).rtype = s.rtype := rfl
@[simp] theorem chkLoadOp_rcrc (v : Byte) : (chkLoadOp v s).rcrc = s.rcrc := rfl
@[simp] theorem chkLoadOp_txbuf (v : Byte) : (chkLoadOp v s).txbuf = s.txbuf := rfl
@[simp] theorem chkLoadOp_rxbuf (v : Byte) : (chkLoadOp v s).rxbuf = s.rxbuf := rfl
@[simp] theorem chkLoadOp_phase (v : Byte) : (chkLoadOp v s).phase = s.phase := rfl
@[simp] theorem chkLoadOp_op (v : Byte) : (chkLoadOp v s).op = s.op := rfl
@[simp] theorem chkLoadOp_txPos (v : Byte) : (chkLoadOp v s).txPos = s.txPos := rfl
@[simp] theorem chkLoadOp_rxState (v : Byte) : (chkLoadOp v s).rxState = s.rxState := rfl
@[simp] theorem chkLoadOp_syncCnt (v : Byte) : (chkLoadOp v s).syncCnt = s.syncCnt := rfl
@[simp] theorem chkLoadOp_rxIdx (v : Byte) : (chkLoadOp v s).rxIdx = s.rxIdx := rfl
@[simp] theorem chkLoadOp_reqType (v : Byte) : (chkLoadOp v s).reqType = s.reqType := rfl
@[simp] theorem chkLoadOp_chkAcc (v : Byte) : (chkLoadOp v s).chkAcc = v := rfl
@[simp] theorem chkLoadOp_status (v : Byte) : (chkLoadOp v s).status = s.status := rfl
@[simp] theorem chkLoadOp_respValid (v : Byte) : (chkLoadOp v s).respValid = s.respValid := rfl
@[simp] theorem chkLoadOp_txHist (v : Byte) : (chkLoadOp v s).txHist = s.txHist := rfl
@[simp] theorem chkLoadOp_rxStream (v : Byte) : (chkLoadOp v s).rxStream = s.rxStream := rfl
@[simp] theorem chkLoadOp_hostq (v : Byte) : (chkLoadOp v s).hostq = s.hostq := rfl
@[simp] theorem chkLoadOp_sched (v : Byte) : (chkLoadOp v s).sched = s.sched := rfl
@[simp] theorem chkLoadOp_returned (v : Byte) : (chkLoadOp v s).returned = s.returned := rfl
@[simp] theorem chkLoadOp_freeCtr (v : Byte) : (chkLoadOp v s).freeCtr = s.freeCtr := rfl

@[simp] theorem chkAddOp_txtype (b : Byte) : (chkAddOp b s).txtype = s.txtype := rfl
@[simp] theorem chkAddOp_plen (b : Byte) : (chkAddOp b s).plen = s.plen := rfl
@[simp] theorem chkAddOp_rawlen (b : Byte) : (chkAddOp b s).rawlen = s.rawlen := rfl
@[simp] theorem chkAddOp_rlen (b : Byte) : (chkAddOp b s).rlen = s.rlen := rfl
@[simp] theorem chkAddOp_rtype (b : Byte) : (chkAddOp b s).rtype = s.rtype := rfl
@[simp] theorem chkAddOp_rcrc (b : Byte) : (chkAddOp b s).rcrc = s.rcrc := rfl
@[simp] theorem chkAddOp_txbuf (b : Byte) : (chkAddOp b s).txbuf = s.txbuf := rfl
@[simp] theorem chkAddOp_rxbuf (b : Byte) : (chkAddOp b s).rxbuf = s.rxbuf := rfl
@[simp] theorem chkAddOp_phase (b : Byte) : (chkAddOp b s).phase = s.phase := rfl
@[simp] theorem chkAddOp_op (b : Byte) : (chkAddOp b s).op = s.op := rfl
@[simp] theorem chkAddOp_txPos (b : Byte) : (chkAddOp b s).txPos = s.txPos := rfl
@[simp] theorem chkAddOp_rxState (b : Byte) : (chkAddOp b s).rxState = s.rxState := rfl
@[simp] theorem chkAddOp_syncCnt (b : Byte) : (chkAddOp b s).syncCnt = s.syncCnt := rfl
@[simp] theorem chkAddOp_rxIdx (b : Byte) : (chkAddOp b s).rxIdx = s.rxIdx := rfl
@[simp] theorem chkAddOp_reqType (b : Byte) : (chkAddOp b s).reqType = s.reqType := rfl
@[simp] theorem chkAddOp_chkAcc (b : Byte) : (chkAddOp b s).chkAcc = s.chkAcc + b := rfl
@[simp] theorem chkAddOp_status (b : Byte) : (chkAddOp b s).status = s.status := rfl
@[simp] theorem chkAddOp_respValid (b : Byte) : (chkAddOp b s).respValid = s.respValid := rfl
@[simp] theorem chkAddOp_txHist (b : Byte) : (chkAddOp b s).txHist = s.txHist := rfl
@[simp] theorem chkAddOp_rxStream (b : Byte) : (chkAddOp b s).rxStream = s.rxStream := rfl
@[simp] theorem chkAddOp_hostq (b : Byte) : (chkAddOp b s).hostq = s.hostq := rfl
@[simp] theorem chkAddOp_sched (b : Byte) : (chkAddOp b s).sched = s.sched := rfl
@[simp] theorem chkAddOp_returned (b : Byte) : (chkAddOp b s).returned = s.returned := rfl
@[simp] theorem chkAddOp_freeCtr (b : Byte) : (chkAddOp b s).freeCtr = s.freeCtr := rfl

@[simp] theorem raiseStatus_txtype (st : RxStatus) : (raiseStatus st s).txtype = s.txtype := rfl
@[simp] theorem raiseStatus_plen (st : RxStatus) : (raiseStatus st s).plen = s.plen := rfl
@[simp] theorem raiseStatus_rawlen (st : RxStatus) : (raiseStatus st s).rawlen = s.rawlen := rfl
@[simp] theorem raiseStatus_rlen (st : RxStatus) : (raiseStatus st s).rlen = s.rlen := rfl
@[simp] theorem raiseStatus_rtype (st : RxStatus) : (raiseStatus st s).rtype = s.rtype := rfl
@[simp] theorem raiseStatus_rcrc (st : RxStatus) : (raiseStatus st s).rcrc = s.rcrc := rfl
@[simp] theorem raiseStatus_txbuf (st : RxStatus) : (raiseStatus st s).txbuf = s.txbuf := rfl
@[simp] theorem raiseStatus_rxbuf (st : RxStatus) : (raiseStatus st s).rxbuf = s.rxbuf := rfl
@[simp] theorem raiseStatus_phase (st : RxStatus) : (raiseStatus st s).phase = s.phase := rfl
@[simp] theorem raiseStatus_op (st : RxStatus) : (raiseStatus st s).op = s.op := rfl
@[simp] theorem raiseStatus_txPos (st : RxStatus) : (raiseStatus st s).txPos = s.txPos := rfl
@[simp] theorem raiseStatus_rxState (st : RxStatus) : (raiseStatus st s).rxState = .terminal := rfl
@[simp] theorem raiseStatus_syncCnt (st : RxStatus) : (raiseStatus st s).syncCnt = s.syncCnt := rfl
@[simp] theorem raiseStatus_rxIdx (st : RxStatus) : (raiseStatus st s).rxIdx = s.rxIdx := rfl
@[simp] theorem raiseStatus_reqType (st : RxStatus) : (raiseStatus st s).reqType = s.reqType := rfl
@[simp] theorem raiseStatus_chkAcc (st : RxStatus) : (raiseStatus st s).chkAcc = s.chkAcc := rfl
@[simp] theorem raiseStatus_status (st : RxStatus) : (raiseStatus st s).status = st := rfl
@[simp] theorem raiseStatus_respValid (st : RxStatus) :
    (raiseStatus st s).respValid = s.respValid := rfl
@[simp] theorem raiseStatus_txHist (st : RxStatus) : (raiseStatus st s).txHist = s.txHist := rfl
@[simp] theorem raiseStatus_rxStream (st : RxStatus) :
    (raiseStatus st s).rxStream = s.rxStream := rfl
@[simp] theorem raiseStatus_hostq (st : RxStatus) : (raiseStatus st s).hostq = s.hostq := rfl
@[simp] theorem raiseStatus_sched (st : RxStatus) : (raiseStatus st s).sched = s.sched := rfl
@[simp] theorem raiseStatus_returned (st : RxStatus) :
    (raiseStatus st s).returned = s.returned := rfl
@[simp] theorem raiseStatus_freeCtr (st : RxStatus) : (raiseStatus st s).freeCtr = s.freeCtr := rfl

@[simp] theorem completeOp_txtype : (completeOp s).txtype = s.txtype := rfl
@[simp] theorem completeOp_plen : (completeOp s).plen = s.plen := rfl
@[simp] theorem completeOp_rawlen : (completeOp s).rawlen = s.rawlen := rfl
@[simp] theorem completeOp_rlen : (completeOp s).rlen = s.rlen := rfl
@[simp] theorem completeOp_rtype : (completeOp s).rtype = s.rtype := rfl
@[simp] theorem completeOp_rcrc : (completeOp s).rcrc = s.rcrc := rfl
@[simp] theorem completeOp_txbuf : (completeOp s).txbuf = s.txbuf := rfl
@[simp] theorem completeOp_rxbuf : (completeOp s).rxbuf = s.rxbuf := rfl
@[simp] theorem completeOp_phase : (completeOp s).phase = .idle := rfl
@[simp] theorem completeOp_op : (completeOp s).op = s.op := rfl
@[simp] theorem completeOp_txPos : (completeOp s).txPos = s.txPos := rfl
@[simp] theorem completeOp_rxState : (completeOp s).rxState = s.rxState := rfl
@[simp] theorem completeOp_syncCnt : (completeOp s).syncCnt = s.syncCnt := rfl
@[simp] theorem completeOp_rxIdx : (completeOp s).rxIdx = s.rxIdx := rfl
@[simp] theorem completeOp_reqType : (completeOp s).reqType = s.reqType := rfl
@[simp] theorem completeOp_chkAcc : (completeOp s).chkAcc = s.chkAcc := rfl
@[simp] theorem completeOp_status :
    (completeOp s).status = if s.op = .raw then correlateTypes s.status s.reqType s.rtype else s.status := rfl
@[simp] theorem completeOp_respValid : (completeOp s).respValid = true := rfl
@[simp] theorem completeOp_txHist : (completeOp s).txHist = s.txHist := rfl
@[simp] theorem completeOp_rxStream : (completeOp s).rxStream = s.rxStream := rfl
@[simp] theorem completeOp_hostq : (completeOp s).hostq = s.hostq := rfl
@[simp] theorem completeOp_sched : (completeOp s).sched = s.sched := rfl
@[simp] theorem completeOp_returned : (completeOp s).returned = s.returned := rfl
@[simp] theorem completeOp_freeCtr : (completeOp s).freeCtr = s.freeCtr := rfl

@[simp] theorem decoderEntry_txtype : (decoderEntry s).txtype = s.txtype := rfl
@[simp] theorem decoderEntry_plen : (decoderEntry s).plen = s.plen := rfl
@[simp] theorem decoderEntry_rawlen : (decoderEntry s).rawlen = s.rawlen := rfl
@[simp] theorem decoderEntry_rlen : (decoderEntry s).rlen = s.rlen := rfl
@[simp] theorem decoderEntry_rtype : (decoderEntry s).rtype = s.rtype := rfl
@[simp] theorem decoderEntry_rcrc : (decoderEntry s).rcrc = s.rcrc := rfl
@[simp] theorem decoderEntry_txbuf : (decoderEntry s).txbuf = s.txbuf := rfl
@[simp] theorem decoderEntry_rxbuf : (decoderEntry s).rxbuf = s.rxbuf := rfl
@[simp] theorem decoderEntry_phase : (decoderEntry s).phase = .rx := rfl
@[simp] theorem decoderEntry_op : (decoderEntry s).op = s.op := rfl
@[simp] theorem decoderEntry_txPos : (decoderEntry s).txPos = s.txPos := rfl
@[simp] theorem decoderEntry_rxState : (decoderEntry s).rxState = .sync := rfl
@[simp] theorem decoderEntry_syncCnt : (decoderEntry s).syncCnt = 0 := rfl
@[simp] theorem decoderEntry_rxIdx : (decoderEntry s).rxIdx = s.rxIdx := rfl
@[simp] theorem decoderEntry_reqType : (decoderEntry s).reqType = s.reqType := rfl
@[simp] theorem decoderEntry_chkAcc : (decoderEntry s).chkAcc = s.chkAcc := rfl
@[simp] theorem decoderEntry_status : (decoderEntry s).status = s.status := rfl
@[simp] theorem decoderEntry_respValid : (decoderEntry s).respValid = s.respValid := rfl
@[simp] theorem decoderEntry_txHist : (decoderEntry s).txHist = s.txHist := rfl
@[simp] theorem decoderEntry_rxStream : (decoderEntry s).rxStream = s.rxStream := rfl
@[simp] theorem decoderEntry_hostq : (decoderEntry s).hostq = s.hostq := rfl
@[simp] theorem decoderEntry_sched : (decoderEntry s).sched = s.sched := rfl
@[simp] theorem decoderEntry_returned : (decoderEntry s).returned = s.returned := rfl
@[simp] theorem decoderEntry_freeCtr : (decoderEntry s).freeCtr = s.freeCtr := rfl

@[simp] theorem cmdStarted_txtype : (cmdStarted s).txtype = s.txtype := rfl
@[simp] theorem cmdStarted_plen : (cmdStarted s).plen = s.plen := rfl
@[simp] theorem cmdStarted_rawlen : (cmdStarted s).rawlen = s.rawlen := rfl
@[simp] theorem cmdStarted_rlen : (cmdStarted s).rlen = s.rlen := rfl
@[simp] theorem cmdStarted_rtype : (cmdStarted s).rtype = s.rtype := rfl
@[simp] theorem cmdStarted_rcrc : (cmdStarted s).rcrc = s.rcrc := rfl
@[simp] theorem cmdStarted_txbuf : (cmdStarted s).txbuf = s.txbuf := rfl
@[simp] theorem cmdStarted_rxbuf : (cmdStarted s).rxbuf = s.rxbuf := rfl
@[simp] theorem cmdStarted_phase : (cmdStarted s).phase = .tx := rfl
@[simp] theorem cmdStarted_op : (cmdStarted s).op = .cmd := rfl
@[simp] theorem cmdStarted_txPos : (cmdStarted s).txPos = 0 := rfl
@[simp] theorem cmdStarted_rxState : (cmdStarted s).rxState = s.rxState := rfl
@[simp] theorem cmdStarted_syncCnt : (cmdStarted s).syncCnt = s.syncCnt := rfl
@[simp] theorem cmdStarted_rxIdx : (cmdStarted s).rxIdx = s.rxIdx := rfl
@[simp] theorem cmdStarted_reqType : (cmdStarted s).reqType = s.reqType := rfl
@[simp] theorem cmdStarted_chkAcc : (cmdStarted s).chkAcc = 0 := rfl
@[simp] theorem cmdStarted_status : (cmdStarted s).status = s.status := rfl
@[simp] theorem cmdStarted_respValid : (cmdStarted s).respValid = false := rfl
@[simp] theorem cmdStarted_txHist : (cmdStarted s).txHist = s.txHist := rfl
@[simp] theorem cmdStarted_rxStream : (cmdStarted s).rxStream = s.rxStream := rfl
@[simp] theorem cmdStarted_hostq : (cmdStarted s).hostq = s.hostq := rfl
@[simp] theorem cmdStarted_sched : (cmdStarted s).sched = s.sched := rfl
@[simp] theorem cmdStarted_returned : (cmdStarted s).returned = s.returned := rfl
@[simp] theorem cmdStarted_freeCtr : (cmdStarted s).freeCtr = s.freeCtr := rfl

@[simp] theorem rawStarted_txtype : (rawStarted s).txtype = s.txtype := rfl
@[simp] theorem rawStarted_plen : (rawStarted s).plen = s.plen := rfl
@[simp] theorem rawStarted_rawlen : (rawStarted s).rawlen = s.rawlen := rfl
@[simp] theorem rawStarted_rlen : (rawStarted s).rlen = s.rlen := rfl
@[simp] theorem rawStarted_rtype : (rawStarted s).rtype = s.rtype := rfl
@[simp] theorem rawStarted_rcrc : (rawStarted s).rcrc = s.rcrc := rfl
@[simp] theorem rawStarted_txbuf : (rawStarted s).txbuf = s.txbuf := rfl
@[simp] theorem rawStarted_rxbuf : (rawStarted s).rxbuf = s.rxbuf := rfl
@[simp] theorem rawStarted_phase : (rawStarted s).phase = .tx := rfl
@[simp] theorem rawStarted_op : (rawStarted s).op = .raw := rfl
@[simp] theorem rawStarted_txPos : (rawStarted s).txPos = 0 := rfl
@[simp] theorem rawStarted_rxState : (rawStarted s).rxState = s.rxState := rfl
@[simp] theorem rawStarted_syncCnt : (rawStarted s).syncCnt = s.syncCnt := rfl
@[simp] theorem rawStarted_rxIdx : (rawStarted s).rxIdx = s.rxIdx := rfl
@[simp] theorem rawStarted_reqType : (rawStarted s).reqType = s.reqType := rfl
@[simp] theorem rawStarted_chkAcc : (rawStarted s).chkAcc = s.chkAcc := rfl
@[simp] theorem rawStarted_status : (rawStarted s).status = s.status := rfl
@[simp] theorem rawStarted_respValid : (rawStarted s).respValid = false := rfl
@[simp] theorem rawStarted_txHist : (rawStarted s).txHist = s.txHist := rfl
@[simp] theorem rawStarted_rxStream : (rawStarted s).rxStream = s.rxStream := rfl
@[simp] theorem rawStarted_hostq : (rawStarted s).hostq = s.hostq := rfl
@[simp] theorem rawStarted_sched : (rawStarted s).sched = s.sched := rfl
@[simp] theorem rawStarted_returned : (rawStarted s).returned = s.returned := rfl
@[simp] theorem rawStarted_freeCtr : (rawStarted s).freeCtr = s.freeCtr := rfl

@[simp] theorem loadCmd_txtype (ty : Byte) (p : List Byte) : (loadCmd ty p s).txtype = ty := rfl
@[simp] theorem loadCmd_plen (ty : Byte) (p : List Byte) :
    (loadCmd ty p s).plen = BitVec.ofNat 8 p.length := rfl
@[simp] theorem loadCmd_rawlen (ty : Byte) (p : List Byte) :
    (loadCmd ty p s).rawlen = s.rawlen := rfl
@[simp] theorem loadCmd_rlen (ty : Byte) (p : List Byte) : (loadCmd ty p s).rlen = s.rlen := rfl
@[simp] theorem loadCmd_rtype (ty : Byte) (p : List Byte) : (loadCmd ty p s).rtype = s.rtype := rfl
@[simp] theorem loadCmd_rcrc (ty : Byte) (p : List Byte) : (loadCmd ty p s).rcrc = s.rcrc := rfl
@[simp] theorem loadCmd_txbuf (ty : Byte) (p : List Byte) :
    (loadCmd ty p s).txbuf = s.txbuf.writeBytes 0 p := rfl
@[simp] theorem loadCmd_rxbuf (ty : Byte) (p : List Byte) : (loadCmd ty p s).rxbuf = s.rxbuf := rfl
@[simp] theorem loadCmd_phase (ty : Byte) (p : List Byte) : (loadCmd ty p s).phase = s.phase := rfl
@[simp] theorem loadCmd_op (ty : Byte) (p : List Byte) : (loadCmd ty p s).op = s.op := rfl
@[simp] theorem loadCmd_txPos (ty : Byte) (p : List Byte) : (loadCmd ty p s).txPos = s.txPos := rfl
@[simp] theorem loadCmd_rxState (ty : Byte) (p : List Byte) :
    (loadCmd ty p s).rxState = s.rxState := rfl
@[simp] theorem loadCmd_syncCnt (ty : Byte) (p : List Byte) :
    (loadCmd ty p s).syncCnt = s.syncCnt := rfl
@[simp] theorem loadCmd_rxIdx (ty : Byte) (p : List Byte) : (loadCmd ty p s).rxIdx = s.rxIdx := rfl
@[simp] theorem loadCmd_reqType (ty : Byte) (p : List Byte) :
    (loadCmd ty p s).reqType = s.reqType := rfl
@[simp] theorem loadCmd_chkAcc (ty : Byte) (p : List Byte) :
    (loadCmd ty p s).chkAcc = s.chkAcc := rfl
@[simp] theorem loadCmd_status (ty : Byte) (p : List Byte) :
    (loadCmd ty p s).status = s.status := rfl
@[simp] theorem loadCmd_respValid (ty : Byte) (p : List Byte) :
    (loadCmd ty p s).respValid = s.respValid := rfl
@[simp] theorem loadCmd_txHist (ty : Byte) (p : List Byte) :
    (loadCmd ty p s).txHist = s.txHist := rfl
@[simp] theorem loadCmd_rxStream (ty : Byte) (p : List Byte) :
    (loadCmd ty p s).rxStream = s.rxStream := rfl
@[simp] theorem loadCmd_hostq (ty : Byte) (p : List Byte) : (loadCmd ty p s).hostq = s.hostq := rfl
@[simp] theorem loadCmd_sched (ty : Byte) (p : List Byte) : (loadCmd ty p s).sched = s.sched := rfl
@[simp] theorem loadCmd_returned (ty : Byte) (p : List Byte) :
    (loadCmd ty p s).returned = s.returned := rfl
@[simp] theorem loadCmd_freeCtr (ty : Byte) (p : List Byte) :
    (loadCmd ty p s).freeCtr = s.freeCtr := rfl

@[simp] theorem loadRaw_txtype (bs : List Byte) : (loadRaw bs s).txtype = s.txtype := rfl
@[simp] theorem loadRaw_plen (bs : List Byte) : (loadRaw bs s).plen = s.plen := rfl
@[simp] theorem loadRaw_rawlen (bs : List Byte) :
    (loadRaw bs s).rawlen = BitVec.ofNat 9 bs.length := rfl
@[simp] theorem loadRaw_rlen (bs : List Byte) : (loadRaw bs s).rlen = s.rlen := rfl
@[simp] theorem loadRaw_rtype (bs : List Byte) : (loadRaw bs s).rtype = s.rtype := rfl
@[simp] theorem loadRaw_rcrc (bs : List Byte) : (loadRaw bs s).rcrc = s.rcrc := rfl
@[simp] theorem loadRaw_txbuf (bs : List Byte) :
    (loadRaw bs s).txbuf = s.txbuf.writeBytes 0 bs := rfl
@[simp] theorem loadRaw_rxbuf (bs : List Byte) : (loadRaw bs s).rxbuf = s.rxbuf := rfl
@[simp] theorem loadRaw_phase (bs : List Byte) : (loadRaw bs s).phase = s.phase := rfl
@[simp] theorem loadRaw_op (bs : List Byte) : (loadRaw bs s).op = s.op := rfl
@[simp] theorem loadRaw_txPos (bs : List Byte) : (loadRaw bs s).txPos = s.txPos := rfl
@[simp] theorem loadRaw_rxState (bs : List Byte) : (loadRaw bs s).rxState = s.rxState := rfl
@[simp] theorem loadRaw_syncCnt (bs : List Byte) : (loadRaw bs s).syncCnt = s.syncCnt := rfl
@[simp] theorem loadRaw_rxIdx (bs : List Byte) : (loadRaw bs s).rxIdx = s.rxIdx := rfl
@[simp] theorem loadRaw_reqType (bs : List Byte) : (loadRaw bs s).reqType = s.reqType := rfl
@[simp] theorem loadRaw_chkAcc (bs : List Byte) : (loadRaw bs s).chkAcc = s.chkAcc := rfl
@[simp] theorem loadRaw_status (bs : List Byte) : (loadRaw bs s).status = s.status := rfl
@[simp] theorem loadRaw_respValid (bs : List Byte) : (loadRaw bs s).respValid = s.respValid := rfl
@[simp] theorem loadRaw_txHist (bs : List Byte) : (loadRaw bs s).txHist = s.txHist := rfl
@[simp] theorem loadRaw_rxStream (bs : List Byte) : (loadRaw bs s).rxStream = s.rxStream := rfl
@[simp] theorem loadRaw_hostq (bs : List Byte) : (loadRaw bs s).hostq = s.hostq := rfl
@[simp] theorem loadRaw_sched (bs : List Byte) : (loadRaw bs s).sched = s.sched := rfl
@[simp] theorem loadRaw_returned (bs : List Byte) : (loadRaw bs s).returned = s.returned := rfl
@[simp] theorem loadRaw_freeCtr (bs : List Byte) : (loadRaw bs s).freeCtr = s.freeCtr := rfl

@[simp] theorem post_txtype (item : HostItem) : (post item s).txtype = s.txtype := rfl
@[simp] theorem post_plen (item : HostItem) : (post item s).plen = s.plen := rfl
@[simp] theorem post_rawlen (item : HostItem) : (post item s).rawlen = s.rawlen := rfl
@[simp] theorem post_rlen (item : HostItem) : (post item s).rlen = s.rlen := rfl
@[simp] theorem post_rtype (item : HostItem) : (post item s).rtype = s.rtype := rfl
@[simp] theorem post_rcrc (item : HostItem) : (post item s).rcrc = s.rcrc := rfl
@[simp] theorem post_txbuf (item : HostItem) : (post item s).txbuf = s.txbuf := rfl
@[simp] theorem post_rxbuf (item : HostItem) : (post item s).rxbuf = s.rxbuf := rfl
@[simp] theorem post_phase (item : HostItem) : (post item s).phase = s.phase := rfl
@[simp] theorem post_op (item : HostItem) : (post item s).op = s.op := rfl
@[simp] theorem post_txPos (item : HostItem) : (post item s).txPos = s.txPos := rfl
@[simp] theorem post_rxState (item : HostItem) : (post item s).rxState = s.rxState := rfl
@[simp] theorem post_syncCnt (item : HostItem) : (post item s).syncCnt = s.syncCnt := rfl
@[simp] theorem post_rxIdx (item : HostItem) : (post item s).rxIdx = s.rxIdx := rfl
@[simp] theorem post_reqType (item : HostItem) : (post item s).reqType = s.reqType := rfl
@[simp] theorem post_chkAcc (item : HostItem) : (post item s).chkAcc = s.chkAcc := rfl
@[simp] theorem post_status (item : HostItem) : (post item s).status = s.status := rfl
@[simp] theorem post_respValid (item : HostItem) : (post item s).respValid = s.respValid := rfl
@[simp] theorem post_txHist (item : HostItem) : (post item s).txHist = s.txHist := rfl
@[simp] theorem post_rxStream (item : HostItem) : (post item s).rxStream = s.rxStream := rfl
@[simp] theorem post_hostq (item : HostItem) : (post item s).hostq = item :: s.hostq := rfl
@[simp] theorem post_sched (item : HostItem) : (post item s).sched = s.sched := rfl
@[simp] theorem post_returned (item : HostItem) : (post item s).returned = s.returned := rfl
@[simp] theorem post_freeCtr (item : HostItem) : (post item s).freeCtr = s.freeCtr := rfl

@[simp] theorem giveBack_txtype (r : Returned) : (giveBack r s).txtype = s.txtype := rfl
@[simp] theorem giveBack_plen (r : Returned) : (giveBack r s).plen = s.plen := rfl
@[simp] theorem giveBack_rawlen (r : Returned) : (giveBack r s).rawlen = s.rawlen := rfl
@[simp] theorem giveBack_rlen (r : Returned) : (giveBack r s).rlen = s.rlen := rfl
@[simp] theorem giveBack_rtype (r : Returned) : (giveBack r s).rtype = s.rtype := rfl
@[simp] theorem giveBack_rcrc (r : Returned) : (giveBack r s).rcrc = s.rcrc := rfl
@[simp] theorem giveBack_txbuf (r : Returned) : (giveBack r s).txbuf = s.txbuf := rfl
@[simp] theorem giveBack_rxbuf (r : Returned) : (giveBack r s).rxbuf = s.rxbuf := rfl
@[simp] theorem giveBack_phase (r : Returned) : (giveBack r s).phase = s.phase := rfl
@[simp] theorem giveBack_op (r : Returned) : (giveBack r s).op = s.op := rfl
@[simp] theorem giveBack_txPos (r : Returned) : (giveBack r s).txPos = s.txPos := rfl
@[simp] theorem giveBack_rxState (r : Returned) : (giveBack r s).rxState = s.rxState := rfl
@[simp] theorem giveBack_syncCnt (r : Returned) : (giveBack r s).syncCnt = s.syncCnt := rfl
@[simp] theorem giveBack_rxIdx (r : Returned) : (giveBack r s).rxIdx = s.rxIdx := rfl
@[simp] theorem giveBack_reqType (r : Returned) : (giveBack r s).reqType = s.reqType := rfl
@[simp] theorem giveBack_chkAcc (r : Returned) : (giveBack r s).chkAcc = s.chkAcc := rfl
@[simp] theorem giveBack_status (r : Returned) : (giveBack r s).status = s.status := rfl
@[simp] theorem giveBack_respValid (r : Returned) : (giveBack r s).respValid = s.respValid := rfl
@[simp] theorem giveBack_txHist (r : Returned) : (giveBack r s).txHist = s.txHist := rfl
@[simp] theorem giveBack_rxStream (r : Returned) : (giveBack r s).rxStream = s.rxStream := rfl
@[simp] theorem giveBack_hostq (r : Returned) : (giveBack r s).hostq = s.hostq := rfl
@[simp] theorem giveBack_sched (r : Returned) : (giveBack r s).sched = s.sched := rfl
@[simp] theorem giveBack_returned (r : Returned) :
    (giveBack r s).returned = s.returned ++ [r] := rfl
@[simp] theorem giveBack_freeCtr (r : Returned) : (giveBack r s).freeCtr = s.freeCtr := rfl

@[simp] theorem txCmdByte_txtype (b : Byte) : (txCmdByte b s).txtype = s.txtype := rfl
@[simp] theorem txCmdByte_plen (b : Byte) : (txCmdByte b s).plen = s.plen := rfl
@[simp] theorem txCmdByte_rawlen (b : Byte) : (txCmdByte b s).rawlen = s.rawlen := rfl
@[simp] theorem txCmdByte_rlen (b : Byte) : (txCmdByte b s).rlen = s.rlen := rfl
@[simp] theorem txCmdByte_rtype (b : Byte) : (txCmdByte b s).rtype = s.rtype := rfl
@[simp] theorem txCmdByte_rcrc (b : Byte) : (txCmdByte b s).rcrc = s.rcrc := rfl
@[simp] theorem txCmdByte_txbuf (b : Byte) : (txCmdByte b s).txbuf = s.txbuf := rfl
@[simp] theorem txCmdByte_rxbuf (b : Byte) : (txCmdByte b s).rxbuf = s.rxbuf := rfl
@[simp] theorem txCmdByte_phase (b : Byte) : (txCmdByte b s).phase = s.phase := rfl
@[simp] theorem txCmdByte_op (b : Byte) : (txCmdByte b s).op = s.op := rfl
@[simp] theorem txCmdByte_txPos (b : Byte) : (txCmdByte b s).txPos = s.txPos + 1 := rfl
@[simp] theorem txCmdByte_rxState (b : Byte) : (txCmdByte b s).rxState = s.rxState := rfl
@[simp] theorem txCmdByte_syncCnt (b : Byte) : (txCmdByte b s).syncCnt = s.syncCnt := rfl
@[simp] theorem txCmdByte_rxIdx (b : Byte) : (txCmdByte b s).rxIdx = s.rxIdx := rfl
@[simp] theorem txCmdByte_reqType (b : Byte) : (txCmdByte b s).reqType = s.reqType := rfl
@[simp] theorem txCmdByte_chkAcc (b : Byte) : (txCmdByte b s).chkAcc = s.chkAcc + b := rfl
@[simp] theorem txCmdByte_status (b : Byte) : (txCmdByte b s).status = s.status := rfl
@[simp] theorem txCmdByte_respValid (b : Byte) : (txCmdByte b s).respValid = s.respValid := rfl
@[simp] theorem txCmdByte_txHist (b : Byte) : (txCmdByte b s).txHist = s.txHist ++ [b] := rfl
@[simp] theorem txCmdByte_rxStream (b : Byte) : (txCmdByte b s).rxStream = s.rxStream := rfl
@[simp] theorem txCmdByte_hostq (b : Byte) : (txCmdByte b s).hostq = s.hostq := rfl
@[simp] theorem txCmdByte_sched (b : Byte) : (txCmdByte b s).sched = s.sched := rfl
@[simp] theorem txCmdByte_returned (b : Byte) : (txCmdByte b s).returned = s.returned := rfl
@[simp] theorem txCmdByte_freeCtr (b : Byte) : (txCmdByte b s).freeCtr = s.freeCtr := rfl

@[simp] theorem crcByte_txtype (b : Byte) : (crcByte b s).txtype = s.txtype := rfl
@[simp] theorem crcByte_plen (b : Byte) : (crcByte b s).plen = s.plen := rfl
@[simp] theorem crcByte_rawlen (b : Byte) : (crcByte b s).rawlen = s.rawlen := rfl
@[simp] theorem crcByte_rlen (b : Byte) : (crcByte b s).rlen = s.rlen := rfl
@[simp] theorem crcByte_rtype (b : Byte) : (crcByte b s).rtype = s.rtype := rfl
@[simp] theorem crcByte_rcrc (b : Byte) : (crcByte b s).rcrc = b := rfl
@[simp] theorem crcByte_txbuf (b : Byte) : (crcByte b s).txbuf = s.txbuf := rfl
@[simp] theorem crcByte_rxbuf (b : Byte) : (crcByte b s).rxbuf = s.rxbuf := rfl
@[simp] theorem crcByte_phase (b : Byte) : (crcByte b s).phase = s.phase := rfl
@[simp] theorem crcByte_op (b : Byte) : (crcByte b s).op = s.op := rfl
@[simp] theorem crcByte_txPos (b : Byte) : (crcByte b s).txPos = s.txPos := rfl
@[simp] theorem crcByte_rxState (b : Byte) : (crcByte b s).rxState = .validate := rfl
@[simp] theorem crcByte_syncCnt (b : Byte) : (crcByte b s).syncCnt = s.syncCnt := rfl
@[simp] theorem crcByte_rxIdx (b : Byte) : (crcByte b s).rxIdx = s.rxIdx := rfl
@[simp] theorem crcByte_reqType (b : Byte) : (crcByte b s).reqType = s.reqType := rfl
@[simp] theorem crcByte_chkAcc (b : Byte) : (crcByte b s).chkAcc = s.chkAcc := rfl
@[simp] theorem crcByte_status (b : Byte) : (crcByte b s).status = s.status := rfl
@[simp] theorem crcByte_respValid (b : Byte) : (crcByte b s).respValid = s.respValid := rfl
@[simp] theorem crcByte_txHist (b : Byte) : (crcByte b s).txHist = s.txHist := rfl
@[simp] theorem crcByte_rxStream (b : Byte) : (crcByte b s).rxStream = s.rxStream := rfl
@[simp] theorem crcByte_hostq (b : Byte) : (crcByte b s).hostq = s.hostq := rfl
@[simp] theorem crcByte_sched (b : Byte) : (crcByte b s).sched = s.sched := rfl
@[simp] theorem crcByte_returned (b : Byte) : (crcByte b s).returned = s.returned := rfl
@[simp] theorem crcByte_freeCtr (b : Byte) : (crcByte b s).freeCtr = s.freeCtr := rfl

@[simp] theorem resetEngine_txtype : (resetEngine s).txtype = Config.freeBits 8 s.freeCtr := rfl
@[simp] theorem resetEngine_plen : (resetEngine s).plen = Config.freeBits 8 (s.freeCtr + 1) := rfl
@[simp] theorem resetEngine_rawlen : (resetEngine s).rawlen = Config.freeBits 9 s.freeCtr := rfl
@[simp] theorem resetEngine_rlen : (resetEngine s).rlen = Config.freeBits 8 (s.freeCtr + 2) := rfl
@[simp] theorem resetEngine_rtype : (resetEngine s).rtype = Config.freeBits 8 (s.freeCtr + 3) := rfl
@[simp] theorem resetEngine_rcrc : (resetEngine s).rcrc = Config.freeBits 8 (s.freeCtr + 4) := rfl
@[simp] theorem resetEngine_txbuf : (resetEngine s).txbuf = [] := rfl
@[simp] theorem resetEngine_rxbuf : (resetEngine s).rxbuf = [] := rfl
@[simp] theorem resetEngine_phase : (resetEngine s).phase = .idle := rfl
@[simp] theorem resetEngine_op : (resetEngine s).op = Config.freeOp s.freeCtr := rfl
@[simp] theorem resetEngine_txPos : (resetEngine s).txPos = Config.freeBits 9 (s.freeCtr + 1) := rfl
@[simp] theorem resetEngine_rxState : (resetEngine s).rxState = .terminal := rfl
@[simp] theorem resetEngine_syncCnt : (resetEngine s).syncCnt = Config.freeBits 4 s.freeCtr := rfl
@[simp] theorem resetEngine_rxIdx : (resetEngine s).rxIdx = Config.freeBits 8 (s.freeCtr + 5) := rfl
@[simp] theorem resetEngine_reqType :
    (resetEngine s).reqType = Config.freeBits 8 (s.freeCtr + 6) := rfl
@[simp] theorem resetEngine_chkAcc :
    (resetEngine s).chkAcc = Config.freeBits 8 (s.freeCtr + 7) := rfl
@[simp] theorem resetEngine_status : (resetEngine s).status = Config.freeStatus s.freeCtr := rfl
@[simp] theorem resetEngine_respValid : (resetEngine s).respValid = false := rfl
@[simp] theorem resetEngine_txHist : (resetEngine s).txHist = s.txHist := rfl
@[simp] theorem resetEngine_rxStream : (resetEngine s).rxStream = s.rxStream := rfl
@[simp] theorem resetEngine_hostq : (resetEngine s).hostq = s.hostq := rfl
@[simp] theorem resetEngine_sched : (resetEngine s).sched = s.sched := rfl
@[simp] theorem resetEngine_returned : (resetEngine s).returned = s.returned := rfl
@[simp] theorem resetEngine_freeCtr : (resetEngine s).freeCtr = s.freeCtr + 8 := rfl

end Sys2Proof.Machine
end

