-- ==== Sys2Proof/Laws/Ops.lean ====
section
/-! SUPPORT. One lemma for each shared operation that says once everything it can do; later proofs
cite these and do not unfold the operations. -/

namespace Sys2Proof.Machine

variable {s t : State}

/-- Everything `RxRead` can do. -/
theorem rxRead_cases (s : State) :
    (s.rxStream = [] ∧ rxRead s = none) ∨
      ∃ b r, s.rxStream = b :: r ∧ rxRead s = some (b, { s with rxStream := r }) := by
  unfold rxRead
  split
  · exact .inl ⟨‹_›, rfl⟩
  · exact .inr ⟨_, _, ‹_›, rfl⟩

/-- A byte-taking step goes on exactly when it is enabled and a byte is there. -/
theorem rxStep_eq_next {st : RxState} {act : Byte → State → State} :
    rxStep st act s = .next t ↔
      s.phase = .rx ∧ s.rxState = st ∧
        ∃ b r, s.rxStream = b :: r ∧ t = act b { s with rxStream := r } := by
  unfold rxStep
  split
  · rename_i h
    rcases rxRead_cases s with ⟨he, hr⟩ | ⟨b, r, he, hr⟩
    · simp [hr, he]
    · simp [hr, he, h, eq_comm]
  · rename_i h
    simp only [reduceCtorEq, false_iff]
    rintro ⟨h1, h2, -⟩
    exact h ⟨h1, h2⟩

/-- An enabled byte-taking step with no byte there is stuck, and never anything else. -/
theorem rxStep_of_empty {st : RxState} {act : Byte → State → State} (hp : s.phase = .rx)
    (hs : s.rxState = st) (he : s.rxStream = []) : rxStep st act s = .fault .stuck := by
  simp [rxStep, rxRead, hp, hs, he]

/-- An enabled byte-taking step with a byte there takes it. -/
theorem rxStep_of_cons {st : RxState} {act : Byte → State → State} {b : Byte} {r : List Byte}
    (hp : s.phase = .rx) (hs : s.rxState = st) (he : s.rxStream = b :: r) :
    rxStep st act s = .next (act b { s with rxStream := r }) :=
  rxStep_eq_next.2 ⟨hp, hs, b, r, he, rfl⟩

/-- A byte-taking step that is enabled goes on or is stuck. -/
theorem rxStep_enabled {st : RxState} {act : Byte → State → State} (hp : s.phase = .rx)
    (hs : s.rxState = st) :
    rxStep st act s = .fault .stuck ∨ ∃ t, rxStep st act s = .next t := by
  cases he : s.rxStream with
  | nil => exact .inl (rxStep_of_empty hp hs he)
  | cons b r => exact .inr ⟨_, rxStep_of_cons hp hs he⟩

/-- All the start step of CMD can do. -/
theorem startCmd_eq_next :
    startCmd s = .next t ↔
      s.plen.toNat ≤ Config.maxPlen ∧
        t = cmdStarted s := by
  unfold startCmd
  split
  · simp [*, eq_comm]
  · simp [*]

/-- All the start step of RAW can do. -/
theorem startRaw_eq_next :
    startRaw s = .next t ↔
      (Config.minRawlen ≤ s.rawlen.toNat ∧ s.rawlen.toNat ≤ Config.txbufSize) ∧
        t = rawStarted s := by
  unfold startRaw
  split
  · simp [*, eq_comm]
  · simp [*]

/-- A payload length within the CMD domain is kept by the 8-bit register. -/
theorem toNat_plen {n : Nat} (h : n ≤ Config.maxPlen) : (BitVec.ofNat 8 n).toNat = n := by
  have : n ≤ 253 := h
  simp only [BitVec.toNat_ofNat]; omega

/-- A frame length within the RAW domain is kept by the 9-bit register. -/
theorem toNat_rawlen {n : Nat} (h : n ≤ Config.txbufSize) : (BitVec.ofNat 9 n).toNat = n := by
  have : n ≤ 258 := h
  simp only [BitVec.toNat_ofNat]; omega

/-- LEN is a byte without truncation within the CMD domain (41_encode.md R135). -/
theorem toNat_lenByte {n : Nat} (h : n ≤ Config.maxPlen) : (lenByte n).toNat = n + 2 := by
  have : n ≤ 253 := h
  simp only [lenByte, BitVec.toNat_ofNat]; omega

/-- The whole of a load and start of CMD. -/
theorem sendCommand_eq_next {ty : Byte} {p : List Byte} :
    sendCommand ty p s = .next t ↔
      p.length ≤ Config.maxPlen ∧
        t = cmdStarted (loadCmd ty p s) := by
  unfold sendCommand
  split
  · rename_i h
    rw [startCmd_eq_next, loadCmd_plen, toNat_plen h]
  · simp [*]

/-- The whole of a load and start of RAW. -/
theorem sendVerbatim_eq_next {bs : List Byte} :
    sendVerbatim bs s = .next t ↔
      (Config.minRawlen ≤ bs.length ∧ bs.length ≤ Config.txbufSize) ∧
        t = rawStarted (loadRaw bs s) := by
  unfold sendVerbatim
  split
  · rename_i h
    rw [startRaw_eq_next, loadRaw_rawlen, toNat_rawlen h.2]
  · simp [*]

/-- A start asked for goes ahead while the engine is idle and waits otherwise. -/
theorem whenIdle_eq_next {item : HostItem} {act : State → Result} :
    whenIdle item act s = .next t ↔
      (s.phase = .idle ∧ act s = .next t) ∨ (s.phase ≠ .idle ∧ t = post item s) := by
  unfold whenIdle
  split
  · simp [*]
  · simp [*, @eq_comm _ t]

/-- Everything SYNC can do with the byte it has taken. -/
theorem syncByte_cases (b : Byte) (s : State) :
    (b = Config.preamble0 ∧
        syncByte b s = { chkLoadOp 0xFF s with rxState := .secondPreamble }) ∨
      (b ≠ Config.preamble0 ∧ s.syncCnt.toNat = Config.syncLimit ∧
        syncByte b s = raiseStatus .timeout s) ∨
      (b ≠ Config.preamble0 ∧ s.syncCnt.toNat ≠ Config.syncLimit ∧
        syncByte b s = { s with syncCnt := s.syncCnt + 1 }) := by
  unfold syncByte
  split
  · exact .inl ⟨‹_›, rfl⟩
  · split
    · exact .inr (.inl ⟨‹_›, ‹_›, rfl⟩)
    · exact .inr (.inr ⟨‹_›, ‹_›, rfl⟩)

/-- Everything SECOND_PREAMBLE can do with the byte it has taken. -/
theorem secondPreambleByte_cases (b : Byte) (s : State) :
    (b = Config.preamble1 ∧
        secondPreambleByte b s = { chkAddOp Config.preamble1 s with rxState := .length }) ∨
      (b ≠ Config.preamble1 ∧ secondPreambleByte b s = raiseStatus .formatErr s) := by
  unfold secondPreambleByte
  split
  · exact .inl ⟨‹_›, rfl⟩
  · exact .inr ⟨‹_›, rfl⟩

/-- Everything LENGTH can do with the byte it has taken. -/
theorem lengthByte_cases (b : Byte) (s : State) :
    (b.toNat < Config.minLen ∧
        lengthByte b s = raiseStatus .formatErr { s with rlen := b }) ∨
      (Config.minLen ≤ b.toNat ∧
        lengthByte b s = { chkAddOp b s with rlen := b, rxIdx := 0, rxState := .payload }) := by
  unfold lengthByte
  split
  · exact .inl ⟨‹_›, rfl⟩
  · exact .inr ⟨by omega, rfl⟩

/-- Everything PAYLOAD can do with the byte it has taken. -/
theorem payloadByte_cases (b : Byte) (s : State) :
    (s.rxIdx.toNat + 2 = s.rlen.toNat ∧
        payloadByte b s = { storeSpanByte b (chkAddOp b s) with rxState := .crc }) ∨
      (s.rxIdx.toNat + 2 ≠ s.rlen.toNat ∧
        payloadByte b s = { storeSpanByte b (chkAddOp b s) with rxIdx := s.rxIdx + 1 }) := by
  unfold payloadByte
  split
  · exact .inl ⟨‹_›, rfl⟩
  · exact .inr ⟨‹_›, rfl⟩

/-- Where a span byte goes. -/
theorem storeSpanByte_cases (b : Byte) (s : State) :
    (s.rxIdx = 0 ∧ storeSpanByte b s = { s with rtype := b }) ∨
      (s.rxIdx ≠ 0 ∧
        storeSpanByte b s = { s with rxbuf := s.rxbuf.writeByte (s.rxIdx.toNat - 1) b }) := by
  unfold storeSpanByte
  split
  · exact .inl ⟨‹_›, rfl⟩
  · exact .inr ⟨‹_›, rfl⟩

/-- Everything the RAW transmit step does with the byte it sends. -/
theorem txRawByteOp_cases (b : Byte) (s : State) :
    (s.txPos.toNat + 1 = s.rawlen.toNat ∧
        txRawByteOp b s = decoderEntry { txWrite b s with
          reqType := if s.txPos.toNat = 3 then b else s.reqType }) ∨
      (s.txPos.toNat + 1 ≠ s.rawlen.toNat ∧
        txRawByteOp b s = { txWrite b s with
          reqType := if s.txPos.toNat = 3 then b else s.reqType, txPos := s.txPos + 1 }) := by
  unfold txRawByteOp
  by_cases h : s.txPos.toNat + 1 = s.rawlen.toNat
  · exact .inl ⟨h, by simp [h]⟩
  · exact .inr ⟨h, by simp [h]⟩

end Sys2Proof.Machine
end

