-- ==== Sys2Proof/Laws/Flags.lean ====
section
/-! SUPPORT. What STAT holds, field by field, and when the response registers may be relied on. -/

namespace Sys2Proof.Machine

/-- STAT, field by field (10_state.md R22). -/
theorem statWord_fields (s : State) :
    s.statWord.getLsbD 0 = s.busy ∧ s.statWord.getLsbD 1 = s.respValid ∧
      s.statWord.extractLsb' 2 3 = s.statusField ∧ s.statWord.toNat < 32 := by
  unfold State.statWord
  cases s.respValid <;> cases s.busy <;> generalize s.statusField = f <;> revert f <;> decide

/-- A response may be relied on exactly in these cases. -/
theorem responseReliable_iff (s : State) :
    s.responseReliable = true ↔
      s.respValid = true ∧
        (s.status = .ok ∨ s.status = .zetagErr ∨
          (s.status = .checksumErr ∧ s.chkAcc = s.rcrc)) := by
  unfold State.responseReliable
  cases s.respValid <;> cases s.status <;> simp

/-- A payload that RXBUF holds is what the response reads as. -/
theorem responsePayload_of_holds {s : State} {p : List Byte} (hl : p.length + 2 = s.rlen.toNat)
    (hh : s.rxbuf.Holds p) : s.responsePayload = p := by
  apply List.ext_getElem
  · simp [State.responsePayload]; omega
  · intro i h1 h2
    simp [State.responsePayload, hh.get _ h2]

end Sys2Proof.Machine
end

