-- ==== Sys2Proof/Laws/Invariant.lean ====
section
/-! SUPPORT. Each shared operation, in the states that run it, keeps the invariants of Safety.lean. -/

namespace Sys2Proof.Machine

variable {s : State}

/-- The invariants say nothing of the environment and of the model's own fields. -/
theorem inv_environment (hi : s.Inv) (hist stream : List Byte) (q : List HostItem) (turns : List Turn)
    (ret : List Returned) (ctr : Nat) :
    ({ s with
      txHist := hist
      rxStream := stream
      hostq := q
      sched := turns
      returned := ret
      freeCtr := ctr } : State).Inv := by
  cases hi; constructor <;> assumption

theorem inv_resetEngine (s : State) : (resetEngine s).Inv := by
  constructor <;> simp [resetEngine, State.responseReliable]
  · have := (Config.freeBits 4 s.freeCtr).isLt
    simp only [Config.syncLimit]; omega

/-- The operands of an idle engine may be loaded. -/
theorem inv_operands (hi : s.Inv) (hp : s.phase = .idle) {m : Memory}
    (hm : m.wf Config.txbufSize = true) (ty pl : Byte) (rl : BitVec 9) :
    ({ s with txtype := ty, plen := pl, rawlen := rl, txbuf := m } : State).Inv := by
  cases hi
  constructor <;> first | assumption | simp [hp]

theorem inv_cmdStarted (hi : s.Inv) (hp : s.phase = .idle) (hl : s.plen.toNat ≤ Config.maxPlen) :
    (cmdStarted s).Inv := by
  have ht := hi.idle_terminal hp
  cases hi
  constructor <;> first | assumption | simp [cmdStarted, ht, State.responseReliable]
  exact hl

theorem inv_rawStarted (hi : s.Inv) (hp : s.phase = .idle)
    (hl : Config.minRawlen ≤ s.rawlen.toNat ∧ s.rawlen.toNat ≤ Config.txbufSize) :
    (rawStarted s).Inv := by
  have ht := hi.idle_terminal hp
  cases hi
  constructor <;> first | assumption | simp [rawStarted, ht, State.responseReliable]
  simp only [Config.minRawlen, Config.txbufSize] at hl ⊢; omega

/-- A transmit step that is not the last one moves on. -/
theorem inv_transmitted (hi : s.Inv) (hp : s.phase = .tx) {pos : BitVec 9}
    (hpos : pos.toNat = s.txPos.toNat + 1) (hc : s.op = .cmd → s.txPos.toNat < s.plen.toNat + 4)
    (hr : s.op = .raw → s.txPos.toNat + 1 ≠ s.rawlen.toNat) (acc req : Byte) :
    ({ s with txPos := pos, chkAcc := acc, reqType := req } : State).Inv := by
  have ht := hi.tx_terminal hp
  have hv := hi.busy_invalid (by simp [hp])
  have hcmd := hi.tx_cmd hp
  have hraw := hi.tx_raw hp
  cases hi
  constructor <;> first | assumption | simp [ht, hp, hv, State.responseReliable]
  · intro ho; have := hcmd ho; have := hc ho; omega
  · intro ho; have := hraw ho; have := hr ho; omega

theorem inv_decoderEntry (hi : s.Inv) (hp : s.phase = .tx) (req : Byte) :
    (decoderEntry { s with reqType := req }).Inv := by
  have ht := hi.tx_terminal hp
  have hv := hi.busy_invalid (by simp [hp])
  cases hi
  constructor <;> first | assumption | simp [decoderEntry, hv]

/-- A raised status other than those VALIDATE gives. -/
theorem inv_raiseStatus (hi : s.Inv) (hp : s.phase = .rx) {st : RxStatus}
    (hst : st = .timeout ∨ st = .formatErr) (rl : Byte) :
    (raiseStatus st { s with rlen := rl }).Inv := by
  have hv := hi.busy_invalid (by simp [hp])
  have h1 : decStatus st := by rcases hst with rfl | rfl <;> simp [decStatus]
  have h2 : st ≠ .ok ∧ st ≠ .checksumErr := by rcases hst with rfl | rfl <;> simp
  cases hi
  constructor <;> first | assumption | simp_all [raiseStatus, State.responseReliable]

theorem inv_syncByte (hi : s.Inv) (hp : s.phase = .rx) (b : Byte) : (syncByte b s).Inv := by
  have hv := hi.busy_invalid (by simp [hp])
  rcases syncByte_cases b s with ⟨hb, e⟩ | ⟨hb, hc, e⟩ | ⟨hb, hc, e⟩ <;> rw [e]
  · cases hi
    constructor <;> first
      | assumption
      | simp [chkLoadOp, hp, hv, State.responseReliable, Config.preamble0]
  · exact inv_raiseStatus hi hp (.inl rfl) s.rlen
  · cases hi
    constructor <;> first | assumption | simp [hp, hv, State.responseReliable]
    have := (s.syncCnt + 1).isLt
    simp only [Config.syncLimit]; omega

theorem inv_secondPreambleByte (hi : s.Inv) (hp : s.phase = .rx)
    (hs : s.rxState = .secondPreamble) (b : Byte) : (secondPreambleByte b s).Inv := by
  have hv := hi.busy_invalid (by simp [hp])
  have hc := hi.chk_second hs
  rcases secondPreambleByte_cases b s with ⟨hb, e⟩ | ⟨hb, e⟩ <;> rw [e]
  · cases hi
    constructor <;> first
      | assumption
      | simp [chkAddOp, hp, hv, hc, State.responseReliable, Config.preamble0]
  · exact inv_raiseStatus hi hp (.inr rfl) s.rlen

theorem inv_lengthByte (hi : s.Inv) (hp : s.phase = .rx) (hs : s.rxState = .length) (b : Byte) :
    (lengthByte b s).Inv := by
  have hv := hi.busy_invalid (by simp [hp])
  have hc := hi.chk_length hs
  rcases lengthByte_cases b s with ⟨hb, e⟩ | ⟨hb, e⟩ <;> rw [e]
  · exact inv_raiseStatus hi hp (.inr rfl) b
  · cases hi
    constructor <;> first
      | assumption
      | simp [chkAddOp, hp, hv, hc, State.responseReliable, Config.preamble0, Config.preamble1]
    · exact hb
    · simp only [Config.minLen] at hb; omega

/-- A span byte stored is a span byte accepted. -/
theorem storeSpanByte_accepted (hi : s.Inv) (hs : s.rxState = .payload) (b : Byte) :
    ∃ p : List Byte, p.length = s.rxIdx.toNat ∧
      (storeSpanByte b (chkAddOp b s)).SpanAccepted p := by
  rcases storeSpanByte_cases b (chkAddOp b s) with ⟨h0, e⟩ | ⟨h0, e⟩ <;> rw [e]
  · refine ⟨[], by simpa using congrArg BitVec.toNat h0.symm, Memory.holds_nil _, ?_⟩
    have := hi.chk_first hs h0
    simp [chkAddOp, this, frameHeader, BitVec.add_assoc]
  · obtain ⟨p, hl, hb, hc⟩ := hi.chk_payload hs h0
    have hi1 : (chkAddOp b s).rxIdx.toNat - 1 = p.length := by simp [chkAddOp]; omega
    refine ⟨p ++ [b], by simp; omega, ?_, ?_⟩
    · simp only [hi1]; exact Memory.holds_snoc _ hb b
    · simp only [chkAddOp, hc, ← List.append_assoc]; rw [checksum8_snoc]

theorem inv_payloadByte (hi : s.Inv) (hp : s.phase = .rx) (hs : s.rxState = .payload) (b : Byte) :
    (payloadByte b s).Inv := by
  have hv := hi.busy_invalid (by simp [hp])
  obtain ⟨p, hpl, hsp⟩ := storeSpanByte_accepted hi hs b
  have hlen : 2 ≤ s.rlen.toNat := hi.len_range (.inl hs)
  have hidx := hi.idx_range hs
  have hmax := s.rlen.isLt
  have hw : (storeSpanByte b (chkAddOp b s)).rxbuf.wf Config.rxbufSize = true := by
    rcases storeSpanByte_cases b (chkAddOp b s) with ⟨h0, e⟩ | ⟨h0, e⟩ <;> rw [e]
    · exact hi.rxbuf_wf
    · refine Memory.wf_writeByte _ ?_ b hi.rxbuf_wf
      simp only [Config.rxbufSize, chkAddOp]; omega
  rcases payloadByte_cases b s with ⟨hb, e⟩ | ⟨hb, e⟩ <;> rw [e]
  · cases hi
    rcases storeSpanByte_cases b (chkAddOp b s) with ⟨h0, e'⟩ | ⟨h0, e'⟩ <;>
      rw [e'] at hsp hw ⊢ <;>
      constructor <;>
      first
      | assumption
      | simp [chkAddOp, hp, hv, State.responseReliable, Config.minLen]
    all_goals try omega
    all_goals exact ⟨p, by omega, hsp⟩
  · have hx : (s.rxIdx + 1).toNat = s.rxIdx.toNat + 1 := by simp only [BitVec.toNat_add]; simp; omega
    have hx0 : s.rxIdx + 1 ≠ 0 := by intro h; rw [h] at hx; simp at hx
    cases hi
    rcases storeSpanByte_cases b (chkAddOp b s) with ⟨h0, e'⟩ | ⟨h0, e'⟩ <;>
      rw [e'] at hsp hw ⊢ <;>
      constructor <;>
      first
      | assumption
      | simp [chkAddOp, hp, hv, hs, hx, State.responseReliable, Config.minLen]
    all_goals try omega
    all_goals first | (intro h; exact absurd h hx0) | skip
    all_goals intro _; exact ⟨p, by omega, hsp⟩

theorem inv_crcByte (hi : s.Inv) (hp : s.phase = .rx) (hs : s.rxState = .crc) (b : Byte) :
    (crcByte b s).Inv := by
  have hv := hi.busy_invalid (by simp [hp])
  have hlen := hi.len_range (.inr (.inl hs))
  have hsp := hi.chk_span (.inl hs)
  cases hi
  constructor <;> first | assumption | simp [crcByte, hp, hv, State.responseReliable]
  · exact hlen
  · exact hsp

theorem inv_validated (hi : s.Inv) (hp : s.phase = .rx) (hs : s.rxState = .validate) :
    (raiseStatus (if s.chkAcc = s.rcrc then .ok else .checksumErr) s).Inv := by
  have hv := hi.busy_invalid (by simp [hp])
  have hsp := hi.chk_span (.inr hs)
  cases hi
  constructor <;> first | assumption | simp [raiseStatus, hp, hv, State.responseReliable]
  · split <;> simp [decStatus]
  · intro h; obtain ⟨p, h1, h2⟩ := hsp; exact ⟨p, h1, h2, h⟩

theorem inv_completeOp (hi : s.Inv) (hp : s.phase = .rx) (hs : s.rxState = .terminal) :
    (completeOp s).Inv := by
  have hd := hi.dec_status hp hs
  have hok := hi.dec_ok hp hs
  have hck := hi.dec_checksum hp hs
  have hv := hi.busy_invalid (by simp [hp])
  cases hi
  constructor <;> first | assumption | simp [completeOp, hs, State.responseReliable]
  · split
    · unfold correlateTypes
      split
      · exact hd.1
      · split_ifs <;> simp
    · exact hd.1
  · intro h
    by_cases hst : s.status = .ok
    · exact hok hst
    · exfalso
      have he : correlateTypes s.status s.reqType s.rtype = s.status := by
        simp [correlateTypes, hst]
      rw [he, ite_self] at h
      obtain ⟨hd1, hd2⟩ := hd
      cases hst2 : s.status <;> simp_all

end Sys2Proof.Machine
end

