-- ==== Sys2Proof/Laws/Step.lean ====
section
/-! SUPPORT. Everything one step of the machine can do, said once: who moved, and what was run. -/

namespace Sys2Proof.Machine

variable {s t : State}

/-- The machine as the moving agent finds it: a listed turn has been taken off the list. -/
def TurnTaken (s u : State) : Prop :=
  (s.sched = [] ∧ u = s) ∨ ∃ a r, s.sched = a :: r ∧ u = { s with sched := r }

/-- Everything a step that goes on can be: the transport supplies a byte, reset is asserted, the
engine moves, or the host moves. -/
theorem step_next_cases (h : step s = .next t) :
    (∃ b r, s.sched = .deliver b :: r ∧ t = deliver [b] { s with sched := r }) ∨
      (∃ r, s.sched = .reset :: r ∧ t = resetEngine { s with sched := r }) ∨
      ∃ u, TurnTaken s u ∧ (engineMove u = .next t ∨ hostMove u = .next t) := by
  unfold step move at h
  split at h
  · rename_i hs
    refine .inr (.inr ⟨s, .inl ⟨hs, rfl⟩, ?_⟩)
    split at h
    · exact .inr h
    · exact .inl h
  · exact .inr (.inr ⟨_, .inr ⟨_, _, ‹_›, rfl⟩, .inr h⟩)
  · exact .inr (.inr ⟨_, .inr ⟨_, _, ‹_›, rfl⟩, .inl h⟩)
  · exact .inl ⟨_, _, ‹_›, by simpa [eq_comm] using h⟩
  · exact .inr (.inl ⟨_, ‹_›, by simpa [eq_comm] using h⟩)

/-- The engine's move: the step its sequencing state chooses, or nothing while it is idle. -/
theorem engineMove_next_cases (h : engineMove s = .next t) :
    (∃ i, engineInstr s = some i ∧ exec i s = .next t) ∨
      (engineInstr s = none ∧ s.phase = .idle ∧ t = s) := by
  unfold engineMove at h
  split at h
  · exact .inl ⟨_, ‹_›, h⟩
  · split at h
    · exact .inr ⟨‹_›, ‹_›, by simpa [eq_comm] using h⟩
    · simp at h

/-- The host's move: nothing (it has no act, or its act waits), or its first act. -/
theorem hostMove_next_cases (h : hostMove s = .next t) :
    t = s ∨ ∃ item rest, s.hostq = item :: rest ∧
      (s.phase = .idle ∨ item.mayProceedBusy = true) ∧
      runItem item { s with hostq := rest } = .next t := by
  unfold hostMove at h
  split at h
  · exact .inl (by simpa [eq_comm] using h)
  · split at h
    · exact .inr ⟨_, _, ‹_›, ‹_›, h⟩
    · exact .inl (by simpa [eq_comm] using h)

/-- Every FRAME row runs as its frame crossing its interface. -/
theorem exec_frameInstr (via : Via) (ty len : Byte) (rest : List Byte) :
    exec (frameInstr via ty len rest) s = frameCrosses via ty len rest s := by
  unfold frameInstr
  repeat' split
  all_goals subst_vars
  all_goals rfl

/-- What the decoder reads as a frame and nothing after it, is the bytes of that frame. -/
theorem decodeFrame_whole {via : Via} {bytes : List Byte} {i : Instr}
    (h : decodeFrame via bytes = .ok (i, [])) :
    ∃ ty len rest, i = frameInstr via ty len rest ∧ bytes = frameBytes ty len rest := by
  unfold decodeFrame at h
  split at h
  · rename_i p0 p1 len ty r
    split at h
    · simp at h
    · split at h
      · simp at h
      · split at h
        · simp at h
        · simp only [Except.ok.injEq, Prod.mk.injEq, List.drop_eq_nil_iff] at h
          refine ⟨ty, len, r, ?_, ?_⟩
          · rw [← h.1, List.take_of_length_le h.2]
          · simp_all [frameBytes, frameHeader]
  · simp at h

/-- Bytes handed over have the effect of their interface, whether they are a frame or not: a FRAME row
does with its bytes what the interface does with any. -/
theorem runFrame_eq {via : Via} {bytes : List Byte} {other : State → Result}
    (h : ∀ ty len rest, bytes = frameBytes ty len rest → frameCrosses via ty len rest s = other s) :
    runFrame via bytes other s = other s := by
  unfold runFrame
  split
  · rename_i i hd
    obtain ⟨ty, len, rest, rfl, hb⟩ := decodeFrame_whole hd
    rw [exec_frameInstr, h ty len rest hb]
  · rfl
  · rfl

theorem runItem_command (ty : Byte) {payload : List Byte} (h : payload.length ≤ Config.maxPlen) :
    runItem (.command ty payload) s = sendByCmd ty payload s := by
  simp only [runItem, h, if_true]
  refine runFrame_eq fun ty' len rest hb => ?_
  simp only [encodeFrame, frameBytes, frameHeader, List.cons_append, List.nil_append,
    List.cons.injEq, true_and] at hb
  obtain ⟨-, rfl, rfl⟩ := hb
  simp [frameCrosses]

theorem runItem_verbatim (bytes : List Byte) :
    runItem (.verbatim bytes) s = sendByRaw bytes s :=
  runFrame_eq fun _ _ _ hb => by rw [hb]; rfl

theorem runItem_received (bytes : List Byte) :
    runItem (.received bytes) s = .next (deliver bytes s) :=
  runFrame_eq (other := fun u => .next (deliver bytes u)) fun _ _ _ hb => by rw [hb]; rfl

/-- No code decodes to an instruction that is the engine's own. -/
theorem decode_hostCallable {c : Code} {i : Instr} {more : List Byte}
    (h : decode c = .ok (i, more)) : i.hostCallable = true := by
  cases c with
  | ctrl v =>
    simp only [decode, Except.ok.injEq, Prod.mk.injEq] at h
    rw [← h.1]
    unfold decodeCtrl
    split <;> rfl
  | frame via bytes =>
    simp only [decode] at h
    unfold decodeFrame at h
    split at h
    · split at h
      · simp at h
      · split at h
        · simp at h
        · split at h
          · simp at h
          · simp only [Except.ok.injEq, Prod.mk.injEq] at h
            rw [← h.1]
            unfold frameInstr
            repeat' split
            all_goals rfl
    · simp at h

/-- Everything an act of the host that goes on can be: an instruction the host may ask for, a type and
payload sent by CMD, bytes sent by RAW or received, or a plain access. -/
theorem runItem_next_cases {item : HostItem} (h : runItem item s = .next t) :
    (∃ i, i.hostCallable = true ∧ exec i s = .next t) ∨
      (∃ ty payload, item = .command ty payload ∧ sendByCmd ty payload s = .next t) ∨
      (∃ bytes, item = .verbatim bytes ∧ sendByRaw bytes s = .next t) ∨
      (∃ bytes, item = .received bytes ∧ t = deliver bytes s) ∨
      (∃ n v, item = .write (n + 1) v ∧ writeHreg (n + 1) v s = .next t) ∨
      (∃ n, item = .read n ∧ readHreg n s = .next t) ∨
      (∃ i b, item = .txbufWrite i b ∧ hostWriteTxbuf i b s = .next t) ∨
      (∃ i, item = .txbufRead i ∧ hostReadTxbuf i s = .next t) ∨
      (∃ i, item = .rxbufRead i ∧ hostReadRxbuf i s = .next t) ∨
      ∃ k, item = .collect k ∧ t = collectReturn k s := by
  cases item with
  | write n v =>
    cases n with
    | zero => exact .inl ⟨_, decode_hostCallable (c := .ctrl v) rfl, h⟩
    | succ n => simp_all [runItem]
  | command ty payload =>
    by_cases hp : payload.length ≤ Config.maxPlen
    · rw [runItem_command ty hp] at h
      simp_all
    · simp [runItem, hp] at h
  | verbatim bytes => simp_all [runItem_verbatim]
  | received bytes =>
    simp only [runItem_received, Host.Outcome.next.injEq] at h
    simp [h]
  | call i =>
    simp only [runItem] at h
    split at h
    · exact .inl ⟨i, ‹_›, h⟩
    · simp at h
  | rxbufWrite i b =>
    simp only [runItem, hostWriteRxbuf] at h
    split at h <;> simp at h
  | collect k =>
    simp only [runItem, Host.Outcome.next.injEq] at h
    simp [h]
  | read n => simp_all [runItem]
  | txbufWrite i b => simp_all [runItem]
  | txbufRead i => simp_all [runItem]
  | rxbufRead i => simp_all [runItem]

end Sys2Proof.Machine
end

