-- ==== Sys2Proof/Laws/Run.lean ====
section
/-! SUPPORT. Runs of several steps: how they compose, and that they are the host's runs. -/

namespace Sys2Proof.Machine

variable {s t : State}

@[simp] theorem runSteps_zero (s : State) : runSteps 0 s = .next s := rfl

/-- A run whose first step goes on is the rest of the run from there. -/
theorem runSteps_succ {n : Nat} (h : step s = .next t) : runSteps (n + 1) s = runSteps n t := by
  simp [runSteps, h]

/-- Two runs, one after the other. -/
theorem runSteps_add {m n : Nat} (h : runSteps m s = .next t) :
    runSteps (m + n) s = runSteps n t := by
  induction m generalizing s with
  | zero => simp only [runSteps_zero, Host.Outcome.next.injEq] at h; rw [h, Nat.zero_add]
  | succ m ih =>
    rw [Nat.succ_add]
    cases hs : step s with
    | next u => rw [runSteps_succ hs] at h ⊢; exact ih h
    | fault f => simp [runSteps, hs] at h
    | refused r => simp [runSteps, hs] at h

/-- A run of any machine, by its first step. -/
theorem coreRun_succ (M : Host.Core) (n : Nat) (s : M.State) :
    (∀ t, M.step s = .next t → M.run (n + 1) s = M.run n t) ∧
      (∀ f, M.step s = .fault f → M.run (n + 1) s = .fault f) ∧
      ∀ r, M.step s = .refused r → M.run (n + 1) s = .refused r :=
  ⟨fun _ h => by simp only [Host.Core.run, h], fun _ h => by simp only [Host.Core.run, h],
    fun _ h => by simp only [Host.Core.run, h]⟩

/-- The runs of this file are those of Host/Core.lean. -/
theorem runSteps_eq_core_run (n : Nat) (s : State) : runSteps n s = Host.Core.run core n s := by
  induction n generalizing s with
  | zero => rfl
  | succ n ih =>
    cases h : step s with
    | next t => exact (runSteps_succ h).trans ((ih t).trans ((coreRun_succ core n s).1 t h).symm)
    | fault f =>
      have hr : runSteps (n + 1) s = .fault f := by simp [runSteps, h]
      exact hr.trans ((coreRun_succ core n s).2.1 f h).symm
    | refused r =>
      have hr : runSteps (n + 1) s = .refused r := by simp [runSteps, h]
      exact hr.trans ((coreRun_succ core n s).2.2 r h).symm

end Sys2Proof.Machine
end

