-- ==== Sys2Proof/Certificates/Slice0/Obligations.lean ====
section
/-! DEFINITION. The statements for the provers. Each docstring names the rule it formalises; a
statement that rests on a choice of the model names the log entry (notes/assumptions/). -/

open Sys2Proof Sys2Proof.Machine

/-! ### Words, fetching and the choice of the next instruction -/

/-- Words written out from 30_encoding.md R80, R99, R104 and 95_test_vectors.md V-E decode to the
instructions they stand for, and bytes that are no frame are rejected by name. -/
def Obligations.SpecWordsDecodeToTheirInstructions : Prop :=
  decode (.ctrl 0) = .ok (.nop, []) ∧
  decode (.ctrl 1) = .ok (.cmd, []) ∧
  decode (.ctrl 2) = .ok (.raw, []) ∧
  decode (.ctrl 3) = .ok (.opselReserved, []) ∧
  decode (.ctrl 0xFFFD) = .ok (.cmd, []) ∧
  decode (.frame .raw [0xFF, 0x00, 0x02, 0x02, 0x03]) = .ok (.frVersion .raw 0x02 [0x03], []) ∧
  decode (.frame .cmd [0xFF, 0x00, 0x03, 0x41, 0x14, 0x57]) =
    .ok (.frTxPower .cmd 0x03 [0x14, 0x57], []) ∧
  decode (.frame .rx [0xFF, 0x00, 0x03, 0xF1, 0x64, 0x57, 0xFF]) =
    .ok (.frChSpaceQry .rx 0x03 [0x64, 0x57], [0xFF]) ∧
  decode (.frame .raw [0xFF, 0x00, 0x02, 0x00, 0x01]) = .ok (.frAny .raw 0x00 0x02 [0x01], []) ∧
  decode (.frame .raw [0xFE, 0x00, 0x02, 0x02, 0x03]) = .error .badPreamble0 ∧
  decode (.frame .raw [0xFF, 0xFF, 0x02, 0x02, 0x03]) = .error .badPreamble1 ∧
  decode (.frame .raw [0xFF, 0x00, 0x02]) = .error .headerTruncated ∧
  decode (.frame .raw [0xFF, 0x00, 0x03, 0x41, 0x14]) = .error .bodyTruncated

/-- Decode and encode agree, from the instruction: a well-formed instruction that has an encoding is
what the decoder reads back from it, with every operand, and a frame's following bytes are left. -/
def Obligations.DecodeInvertsEncode : Prop :=
  ∀ (i : Instr) (c : Code), i.wf = true → encode i = some c →
    decode c = .ok (i, []) ∧
      ∀ via bytes more, c = .frame via bytes → decode (.frame via (bytes ++ more)) = .ok (i, more)

/-- Decode and encode agree, from the bytes: no bit of a frame is dropped, and of a CTRL word exactly
the bits above OPSEL are (10_state.md R21: "Bits above bit 1 of the written value are ignored"). -/
def Obligations.EncodeInvertsDecode : Prop :=
  (∀ via bytes i more, decode (.frame via bytes) = .ok (i, more) →
    ∃ own, encode i = some (.frame via own) ∧ bytes = own ++ more) ∧
  (∀ v i more, decode (.ctrl v) = .ok (i, more) →
    more = [] ∧ encode i = some (.ctrl (BitVec.ofNat 16 (v.toNat % 4))))

/-- A step of the idle machine whose next host act hands over a code that decodes to an instruction runs
that instruction, in the state with the act taken off the list: a CTRL word, a call, bytes sent by RAW or
received that are exactly one frame, a type and payload sent by CMD (their code is the frame ENC makes of
them). -/
def Obligations.HostFetchRunsDecodedInstruction : Prop :=
  ∀ (s : State) (i : Instr) (q : List HostItem), s.phase = .idle → s.sched = [] →
    (∀ v, s.hostq = .write 0 v :: q → decode (.ctrl v) = .ok (i, []) →
      step s = exec i { s with hostq := q }) ∧
    (∀ bytes, s.hostq = .verbatim bytes :: q → decode (.frame .raw bytes) = .ok (i, []) →
      step s = exec i { s with hostq := q }) ∧
    (∀ bytes, s.hostq = .received bytes :: q → decode (.frame .rx bytes) = .ok (i, []) →
      step s = exec i { s with hostq := q }) ∧
    (∀ ty payload, payload.length ≤ 253 → s.hostq = .command ty payload :: q →
      decode (.frame .cmd (encodeFrame ty payload)) = .ok (i, []) →
        step s = exec i { s with hostq := q }) ∧
    (s.hostq = .call i :: q → i.hostCallable = true → step s = exec i { s with hostq := q })

/-- What a load and start of CMD leaves: the operands, TXBUF with the payload at its front and every other
byte as before, the start step's writes, `q` put before the host's other pending acts, nothing else. -/
def cmdIsStarted (ty : Byte) (payload : List Byte) (q : List HostItem) (s : State) (r : Result) : Prop :=
  ∃ m : Memory,
    (∀ j, m.readByte j = if j < payload.length then payload[j]? else s.txbuf.readByte j) ∧
    r = .next
      { s with
        txtype := ty
        plen := BitVec.ofNat 8 payload.length
        txbuf := m
        op := .cmd
        txPos := 0
        chkAcc := 0
        respValid := false
        phase := .tx
        hostq := q ++ s.hostq }

/-- What a load and start of RAW leaves: RAWLEN, TXBUF with the bytes at its front and every other byte as
before, the start step's writes, nothing else. -/
def rawIsStarted (bytes : List Byte) (s : State) (r : Result) : Prop :=
  ∃ m : Memory,
    (∀ j, m.readByte j = if j < bytes.length then bytes[j]? else s.txbuf.readByte j) ∧
    r = .next
      { s with
        rawlen := BitVec.ofNat 9 bytes.length
        txbuf := m
        op := .raw
        txPos := 0
        respValid := false
        phase := .tx }

/-- Bytes the host hands over have the effect of their interface whether or not they form a frame
(41_encode.md R140: "the engine does not check that the bytes form a frame"; 30_encoding.md R101, R102):
`RAW` of 4 to 258 bytes starts a RAW of exactly these, bytes received join the stream whatever the engine
is doing, `CMD` of a type and at most 253 payload bytes starts that CMD. Outside these domains (R131, R181)
the act is refused; so is a call of a row that is the engine's own (log entry 12). -/
def Obligations.HandedOverBytesHaveTheirEffect : Prop :=
  (∀ (s : State) (q : List HostItem), s.phase = .idle → s.sched = [] →
    (∀ bytes, s.hostq = .verbatim bytes :: q → 4 ≤ bytes.length → bytes.length ≤ 258 →
      rawIsStarted bytes { s with hostq := q } (step s)) ∧
    (∀ bytes, s.hostq = .verbatim bytes :: q → bytes.length < 4 ∨ 258 < bytes.length →
      step s = .refused .rawlenOutOfRange) ∧
    (∀ ty payload, s.hostq = .command ty payload :: q → payload.length ≤ 253 →
      cmdIsStarted ty payload [] { s with hostq := q } (step s)) ∧
    (∀ ty payload, s.hostq = .command ty payload :: q → 253 < payload.length →
      step s = .refused .plenOutOfRange) ∧
    (∀ i, s.hostq = .call i :: q → i.hostCallable = false →
      step s = .refused .notHostCallable)) ∧
  (∀ (s : State) (bytes : List Byte) (q : List HostItem) (r : List Turn),
    s.hostq = .received bytes :: q →
      (s.phase = .idle → s.sched = [] →
        step s = .next { s with hostq := q, rxStream := s.rxStream ++ bytes }) ∧
      (s.sched = .host :: r →
        step s = .next { s with hostq := q, sched := r, rxStream := s.rxStream ++ bytes }))

/-- While the engine is busy, and no turn is listed, a step runs the one internal step its sequencing
state selects (41_encode.md R132, R140; 42_decode.md R150; opcode_table.json `enabled_when`). -/
def Obligations.EngineStepRunsSelectedInstruction : Prop :=
  ∀ s : State, s.sched = [] →
    (s.phase = .tx → s.op = .cmd →
      (s.txPos.toNat = 0 → step s = exec .txCmdPreamble0 s) ∧
      (s.txPos.toNat = 1 → step s = exec .txCmdPreamble1 s) ∧
      (s.txPos.toNat = 2 → step s = exec .txCmdLen s) ∧
      (s.txPos.toNat = 3 → step s = exec .txCmdType s) ∧
      (4 ≤ s.txPos.toNat → s.txPos.toNat ≤ s.plen.toNat + 3 → step s = exec .txCmdPayload s) ∧
      (s.txPos.toNat = s.plen.toNat + 4 → step s = exec .txCmdCrc s)) ∧
    (s.phase = .tx → s.op = .raw → step s = exec .txRawByte s) ∧
    (s.phase = .rx →
      (s.rxState = .sync → step s = exec .rxSync s) ∧
      (s.rxState = .secondPreamble → step s = exec .rxSecondPreamble s) ∧
      (s.rxState = .length → step s = exec .rxLength s) ∧
      (s.rxState = .payload → step s = exec .rxPayload s) ∧
      (s.rxState = .crc → step s = exec .rxCrc s) ∧
      (s.rxState = .validate → step s = exec .rxValidate s) ∧
      (s.rxState = .terminal → step s = exec .complete s))

/-- The rows of the engine's own steps (opcode_table.json, format STEP). -/
def isStepRow : Instr → Prop
  | .txCmdPreamble0 | .txCmdPreamble1 | .txCmdLen | .txCmdType | .txCmdPayload | .txCmdCrc
  | .txRawByte | .rxSync | .rxSecondPreamble | .rxLength | .rxPayload | .rxCrc | .rxValidate
  | .complete => True
  | _ => False

/-- An internal step has no meaning outside its condition: it stops by name exactly where the
sequencing state does not select it (opcode_table.json `enabled_when`; log entry 9). -/
def Obligations.InternalStepsNeedTheirCondition : Prop :=
  ∀ (i : Instr) (s : State), isStepRow i →
    (exec i s = .fault .notEnabled ↔ engineInstr s ≠ some i)

/-! ### CHK -/

/-- 40_checksum.md R120: `checksum8` is the integer sum of the bytes modulo 256, the empty sum 0. -/
def Obligations.ChecksumIsTheSumModulo256 : Prop :=
  (∀ bytes : List Byte, (checksum8 bytes).toNat = (bytes.map BitVec.toNat).sum % 256) ∧
  checksum8 [] = 0

/-- The FUNC rows, asked for as instructions. CHK.LOAD writes the accumulator and CHK.ADD adds modulo 256
(40_checksum.md R121, R122); the pure functions `checksum8` (R120), `encodeCommand` (41_encode.md R130,
refused past R131's 253 bytes), `decode` (42_decode.md R159) and `correlate` (43_dispatch_correlate.md
R182) hand their value to the caller, by way of the list `returned`, the model's choice of log entry 14.
Nothing else changes, and no form waits or fails. -/
def Obligations.FunctionRowsHandBackTheirValue : Prop :=
  (∀ (v : Byte) (s : State), exec (.chkLoad v) s = .next { s with chkAcc := v }) ∧
  (∀ (b : Byte) (s : State), ∃ c : Byte, c.toNat = (s.chkAcc.toNat + b.toNat) % 256 ∧
    exec (.chkAdd b) s = .next { s with chkAcc := c }) ∧
  (∀ (bytes : List Byte) (s : State), ∃ c : Byte,
    c.toNat = (bytes.map BitVec.toNat).sum % 256 ∧
      exec (.checksum8 bytes) s = .next { s with returned := s.returned ++ [.byte c] }) ∧
  (∀ (ty : Byte) (payload : List Byte) (s : State), payload.length ≤ 253 →
    exec (.encodeCommand ty payload) s =
      .next { s with returned := s.returned ++ [.frame (encodeFrame ty payload)] }) ∧
  (∀ (ty : Byte) (payload : List Byte) (s : State), 253 < payload.length →
    exec (.encodeCommand ty payload) s = .refused .plenOutOfRange) ∧
  (∀ (stream : List Byte) (s : State), exec (.decode stream) s =
    .next { s with returned := s.returned ++ [.decoded (decodeStream stream)] }) ∧
  (∀ (st : RxStatus) (req rsp : Byte) (s : State), exec (.correlate st req rsp) s =
    .next { s with returned := s.returned ++ [.status (correlateTypes st req rsp)] })

/-- CHK.ADD of the bytes of a list, one after another. -/
def addsAll : List Byte → State → Result
  | [], s => .next s
  | b :: r, s =>
    match exec (.chkAdd b) s with
    | .next t => addsAll r t
    | o => o

/-- 40_checksum.md R123: if the accumulator is the checksum of `a` and the bytes of `b` are added one by
one, it is afterwards the checksum of `a ++ b`, which is the sum of the two checksums. -/
def Obligations.ChecksumAccumulatesByteByByte : Prop :=
  ∀ (a b : List Byte) (s : State), s.chkAcc = checksum8 a →
    addsAll b s = .next { s with chkAcc := checksum8 (a ++ b) } ∧
      checksum8 (a ++ b) = checksum8 a + checksum8 b

/-- 40_checksum.md R124: the order of the bytes does not matter, and changes whose sum is 0 modulo 256 are
not seen; a change of exactly one checked byte is always seen, and so is a change of the CRC byte alone. -/
def Obligations.ChecksumIgnoresOrderAndSeesOneChange : Prop :=
  (∀ a b : List Byte, a.Perm b → checksum8 a = checksum8 b) ∧
  (∀ a b : List Byte,
    (a.map BitVec.toNat).sum % 256 = (b.map BitVec.toNat).sum % 256 → checksum8 a = checksum8 b) ∧
  (∀ (a : List Byte) (i : Nat) (old new : Byte), a[i]? = some old → old ≠ new →
    checksum8 (a.set i new) ≠ checksum8 a) ∧
  (∀ (ty : Byte) (payload : List Byte) (crc : Byte), payload.length ≤ 253 →
    crc ≠ checksum8 ([0xFF, 0x00, lenByte payload.length, ty] ++ payload) →
    ∃ k, decodeStream ([0xFF, 0x00, lenByte payload.length, ty] ++ payload ++ [crc]) =
      .done .checksumErr k none)

/-! ### ENC and the starts -/

/-- 41_encode.md R130: the frame `encodeCommand` builds, its length, and that different arguments give
different frames. -/
def Obligations.EncodeCommandBuildsTheFrame : Prop :=
  (∀ (ty : Byte) (payload : List Byte), payload.length ≤ 253 → ∃ len crc : Byte,
    len.toNat = payload.length + 2 ∧
    crc = checksum8 ([0xFF, 0x00, len, ty] ++ payload) ∧
    encodeFrame ty payload = [0xFF, 0x00, len, ty] ++ payload ++ [crc] ∧
    (encodeFrame ty payload).length = payload.length + 5) ∧
  (∀ (ty ty' : Byte) (p p' : List Byte), encodeFrame ty p = encodeFrame ty' p' → ty = ty' ∧ p = p')

/-- The start steps of 43_dispatch_correlate.md R180 and R181 and the no-operation of 30_encoding.md
R99, asked of an idle engine within their domains: all that they write. -/
def Obligations.StartsTakeEffectWhenIdle : Prop :=
  ∀ s : State, s.phase = .idle →
    exec .nop s = .next s ∧
    (s.plen.toNat ≤ 253 → exec .cmd s = .next
      { s with op := .cmd, txPos := 0, chkAcc := 0, respValid := false, phase := .tx }) ∧
    (4 ≤ s.rawlen.toNat → s.rawlen.toNat ≤ 258 → exec .raw s = .next
      { s with op := .raw, txPos := 0, respValid := false, phase := .tx })

/-- 30_encoding.md R100: a write of OPSEL 3, a CMD start with PLEN above 253, a RAW start with RAWLEN
below 4 or above 258 are refused, each under a name of its own. -/
def Obligations.StartsOutsideTheirDomainAreRefused : Prop :=
  ∀ s : State,
    exec .opselReserved s = .refused .opselReserved ∧
    (s.phase = .idle → 253 < s.plen.toNat → exec .cmd s = .refused .plenOutOfRange) ∧
    (s.phase = .idle → s.rawlen.toNat < 4 ∨ 258 < s.rawlen.toNat →
      exec .raw s = .refused .rawlenOutOfRange)

/-! ### The transmit phase -/

/-- 41_encode.md R133 to R136: the four header steps of a CMD, each with all that it writes. That in a
state no run reaches, with PLEN outside R131's domain, the LEN step answers the refusal plenOutOfRange is
no clause of these rules: it is the model's choice of log entry 9. -/
def Obligations.CmdHeaderBytesAreSent : Prop :=
  ∀ s : State, s.phase = .tx → s.op = .cmd →
    (s.txPos = 0 → exec .txCmdPreamble0 s = .next
      { s with txHist := s.txHist ++ [0xFF], chkAcc := s.chkAcc + 0xFF, txPos := 1 }) ∧
    (s.txPos = 1 → exec .txCmdPreamble1 s = .next
      { s with txHist := s.txHist ++ [0x00], chkAcc := s.chkAcc + 0x00, txPos := 2 }) ∧
    (s.txPos = 2 → s.plen.toNat ≤ 253 → ∃ len : Byte, len.toNat = s.plen.toNat + 2 ∧
      exec .txCmdLen s = .next
        { s with txHist := s.txHist ++ [len], chkAcc := s.chkAcc + len, txPos := 3 }) ∧
    (s.txPos = 2 → 253 < s.plen.toNat → exec .txCmdLen s = .refused .plenOutOfRange) ∧
    (s.txPos = 3 → exec .txCmdType s = .next
      { s with
        txHist := s.txHist ++ [s.txtype]
        chkAcc := s.chkAcc + s.txtype
        reqType := s.txtype
        txPos := 4 })

/-- 41_encode.md R137: the payload step of a CMD sends `TXBUF[tx_pos - 4]`; there is none when
`PLEN = 0`. -/
def Obligations.CmdPayloadByteIsSent : Prop :=
  ∀ (s : State) (b : Byte), s.phase = .tx → s.op = .cmd →
    (4 ≤ s.txPos.toNat → s.txPos.toNat ≤ s.plen.toNat + 3 →
      s.txbuf.readByte (s.txPos.toNat - 4) = some b →
        ∃ pos : BitVec 9, pos.toNat = s.txPos.toNat + 1 ∧ exec .txCmdPayload s = .next
          { s with txHist := s.txHist ++ [b], chkAcc := s.chkAcc + b, txPos := pos }) ∧
    (s.plen = 0 → exec .txCmdPayload s = .fault .notEnabled)

/-- 41_encode.md R138 and R139: the last step of a CMD sends `chk_acc`, does not add it, and enters the
decoder; nothing else is written and the receive stream is not touched. -/
def Obligations.CmdCrcByteEntersTheDecoder : Prop :=
  ∀ s : State, s.phase = .tx → s.op = .cmd → s.txPos.toNat = s.plen.toNat + 4 →
    exec .txCmdCrc s = .next
      { s with
        txHist := s.txHist ++ [s.chkAcc]
        phase := .rx
        rxState := .sync
        syncCnt := 0 }

/-- 41_encode.md R140: the RAW transmit step sends `TXBUF[tx_pos]`, captures the request type at offset
3 (R141), and either moves on or enters the decoder (R139); `chk_acc` is left as it was. -/
def Obligations.RawByteIsSentVerbatim : Prop :=
  ∀ (s : State) (b req : Byte), s.phase = .tx → s.op = .raw →
    s.txbuf.readByte s.txPos.toNat = some b →
    req = (if s.txPos.toNat = 3 then b else s.reqType) →
    (s.txPos.toNat + 1 < s.rawlen.toNat → ∃ pos : BitVec 9, pos.toNat = s.txPos.toNat + 1 ∧
      exec .txRawByte s = .next
        { s with txHist := s.txHist ++ [b], reqType := req, txPos := pos }) ∧
    (s.txPos.toNat + 1 = s.rawlen.toNat → exec .txRawByte s = .next
      { s with
        txHist := s.txHist ++ [b]
        reqType := req
        phase := .rx
        rxState := .sync
        syncCnt := 0 })

/-- The model's choice for an operand byte nothing has written (70_reset_and_hazards.md R262, section 1: the
operation "sends unspecified bytes"; log entry 4): the step runs, the byte it sends is a free value, the
same one it adds or captures, and one free value is drawn. -/
def Obligations.UnwrittenOperandBytesAreFree : Prop :=
  ∀ s : State, s.phase = .tx →
    (s.op = .cmd → 4 ≤ s.txPos.toNat → s.txPos.toNat ≤ s.plen.toNat + 3 →
      s.txbuf.readByte (s.txPos.toNat - 4) = none → ∃ (b : Byte) (pos : BitVec 9),
        pos.toNat = s.txPos.toNat + 1 ∧ exec .txCmdPayload s = .next
          { s with
            txHist := s.txHist ++ [b]
            chkAcc := s.chkAcc + b
            txPos := pos
            freeCtr := s.freeCtr + 1 }) ∧
    (s.op = .raw → s.txbuf.readByte s.txPos.toNat = none → ∃ (b : Byte) (t : State),
      exec .txRawByte s = .next t ∧ t.txHist = s.txHist ++ [b] ∧ t.freeCtr = s.freeCtr + 1 ∧
        t.reqType = (if s.txPos.toNat = 3 then b else s.reqType) ∧ t.txbuf = s.txbuf ∧
        t.rxStream = s.rxStream ∧ t.chkAcc = s.chkAcc ∧ t.status = s.status)

/-- 41_encode.md R142: the transmit phase cannot fail and reports nothing: in a state that meets the
invariants every one of its steps goes on, sends one byte, and leaves the flags, the response registers
and the receive stream alone. -/
def Obligations.TransmitPhaseCannotFail : Prop :=
  ∀ s : State, s.Inv → s.sched = [] → s.phase = .tx →
    ∃ (t : State) (b : Byte), step s = .next t ∧ t.txHist = s.txHist ++ [b] ∧
      t.status = s.status ∧ t.respValid = s.respValid ∧ t.rlen = s.rlen ∧ t.rtype = s.rtype ∧
      t.rcrc = s.rcrc ∧ t.rxbuf = s.rxbuf ∧ t.rxStream = s.rxStream

/-- 41_encode.md R143: from a started CMD the transmit phase appends exactly the bytes of
`encodeCommand(TXTYPE, TXBUF[0..PLEN))`, in `PLEN + 5` steps, and from a started RAW exactly
`TXBUF[0..RAWLEN)`, in `RAWLEN` steps; all else it writes is listed, so the operands do not change. -/
def Obligations.TransmitPhaseSendsTheFrame : Prop :=
  (∀ (s : State) (p : List Byte), s.sched = [] → s.phase = .tx → s.op = .cmd → s.txPos = 0 →
    s.chkAcc = 0 → p.length ≤ 253 → s.plen.toNat = p.length → s.txbuf.Holds p →
      runSteps (p.length + 5) s = .next
        { s with
          txHist := s.txHist ++ encodeFrame s.txtype p
          chkAcc := checksum8 ([0xFF, 0x00, lenByte p.length, s.txtype] ++ p)
          reqType := s.txtype
          txPos := BitVec.ofNat 9 (p.length + 4)
          phase := .rx
          rxState := .sync
          syncCnt := 0 }) ∧
  (∀ (s : State) (bytes : List Byte) (req : Byte), s.sched = [] → s.phase = .tx → s.op = .raw →
    s.txPos = 0 → 4 ≤ bytes.length → bytes.length ≤ 258 → s.rawlen.toNat = bytes.length →
    s.txbuf.Holds bytes → bytes[3]? = some req →
      runSteps bytes.length s = .next
        { s with
          txHist := s.txHist ++ bytes
          reqType := req
          txPos := BitVec.ofNat 9 (bytes.length - 1)
          phase := .rx
          rxState := .sync
          syncCnt := 0 })

/-! ### DEC -/

/-- 42_decode.md R151, each line of its pseudocode with all that it writes. -/
def Obligations.SyncSearchesForThePreamble : Prop :=
  ∀ (s : State) (b : Byte) (r : List Byte), s.phase = .rx → s.rxState = .sync →
    s.rxStream = b :: r →
    (b = 0xFF → exec .rxSync s = .next
      { s with rxStream := r, chkAcc := 0xFF, rxState := .secondPreamble }) ∧
    (b ≠ 0xFF → s.syncCnt.toNat = 15 → exec .rxSync s = .next
      { s with rxStream := r, status := .timeout, rxState := .terminal }) ∧
    (b ≠ 0xFF → s.syncCnt.toNat < 15 → ∃ cnt : BitVec 4, cnt.toNat = s.syncCnt.toNat + 1 ∧
      exec .rxSync s = .next { s with rxStream := r, syncCnt := cnt })

/-- 42_decode.md R152 and R153: a byte other than `0x00` after the `0xFF`, or a LEN of 0 or 1, ends the
attempt with FORMAT_ERR in the step that took it; otherwise the attempt goes on. -/
def Obligations.HeaderErrorsAreFormatErrors : Prop :=
  (∀ (s : State) (b : Byte) (r : List Byte), s.phase = .rx → s.rxState = .secondPreamble →
    s.rxStream = b :: r →
    (b = 0x00 → exec .rxSecondPreamble s = .next
      { s with rxStream := r, chkAcc := s.chkAcc + 0x00, rxState := .length }) ∧
    (b ≠ 0x00 → exec .rxSecondPreamble s = .next
      { s with rxStream := r, status := .formatErr, rxState := .terminal })) ∧
  (∀ (s : State) (b : Byte) (r : List Byte), s.phase = .rx → s.rxState = .length →
    s.rxStream = b :: r →
    (b.toNat < 2 → exec .rxLength s = .next
      { s with rxStream := r, rlen := b, status := .formatErr, rxState := .terminal }) ∧
    (2 ≤ b.toNat → exec .rxLength s = .next
      { s with
        rxStream := r
        rlen := b
        chkAcc := s.chkAcc + b
        rxIdx := 0
        rxState := .payload }))

/-- 42_decode.md R154: the first span byte is TYPE, the others go to `RXBUF[rx_idx - 1]`, and the state is
left with span byte number `RLEN - 1`; every other byte of RXBUF reads as before. The premise on
`rx_idx` is the invariant of 10_state.md R41 (e). -/
def Obligations.PayloadCollectsTheSpan : Prop :=
  ∀ (s : State) (b : Byte) (r : List Byte), s.phase = .rx → s.rxState = .payload →
    s.rxStream = b :: r → s.rxIdx.toNat + 1 < s.rlen.toNat →
    ∃ (ty : Byte) (buf : Memory) (idx : BitVec 8) (st : RxState),
      ty = (if s.rxIdx = 0 then b else s.rtype) ∧
      (∀ i, buf.readByte i =
        if s.rxIdx ≠ 0 ∧ i = s.rxIdx.toNat - 1 then some b else s.rxbuf.readByte i) ∧
      (s.rxIdx.toNat + 1 = s.rlen.toNat - 1 → idx = s.rxIdx ∧ st = .crc) ∧
      (s.rxIdx.toNat + 1 ≠ s.rlen.toNat - 1 →
        idx.toNat = s.rxIdx.toNat + 1 ∧ st = .payload) ∧
      exec .rxPayload s = .next
        { s with
          rxStream := r
          chkAcc := s.chkAcc + b
          rtype := ty
          rxbuf := buf
          rxIdx := idx
          rxState := st }

/-- 42_decode.md R155 and R156: CRC takes one byte that is not added; VALIDATE takes none and compares. -/
def Obligations.CrcIsTakenAndValidated : Prop :=
  (∀ (s : State) (b : Byte) (r : List Byte), s.phase = .rx → s.rxState = .crc →
    s.rxStream = b :: r → exec .rxCrc s = .next
      { s with rxStream := r, rcrc := b, rxState := .validate }) ∧
  (∀ s : State, s.phase = .rx → s.rxState = .validate → exec .rxValidate s = .next
    { s with
      status := if s.chkAcc = s.rcrc then .ok else .checksumErr
      rxState := .terminal })

/-- 43_dispatch_correlate.md R183 and R185: the completion step applies COR in a RAW operation only, sets
`resp_valid`, goes to IDLE, and changes nothing else (R188: the response registers keep the response). -/
def Obligations.CompletionEndsTheOperation : Prop :=
  ∀ s : State, s.phase = .rx → s.rxState = .terminal → exec .complete s = .next
    { s with
      status := if s.op = .raw then correlateTypes s.status s.reqType s.rtype else s.status
      respValid := true
      phase := .idle }

/-- 42_decode.md R161: in each of the five byte-taking states the engine is stuck while no byte is there,
whatever the rest of the state; no status is produced, and it resumes when a byte arrives. -/
def Obligations.ReceiveStepsBlockOnSilence : Prop :=
  ∀ s : State, s.sched = [] → s.phase = .rx → s.rxState ≠ .validate → s.rxState ≠ .terminal →
    (s.rxStream = [] → step s = .fault .stuck) ∧
    (∀ b, s.rxStream = [] → step { s with sched := [.deliver b] } = .next { s with rxStream := [b] }) ∧
    (s.rxStream ≠ [] → ∃ t, step s = .next t ∧ t.rxStream = s.rxStream.tail)

/-- 42_decode.md R162: every transition of `rx_state`, with its condition, the status it writes and the
byte it takes. -/
def Obligations.ReceiveTransitionsAreTheTable : Prop :=
  ∀ s t : State, s.sched = [] → step s = .next t →
    (s.phase = .idle → t.rxState = s.rxState) ∧
    (s.phase = .tx → t.status = s.status ∧ t.rxStream = s.rxStream ∧
      (t.phase = .rx ∧ t.rxState = .sync ∨ t.phase = .tx ∧ t.rxState = s.rxState)) ∧
    (s.phase = .rx → s.rxState = .sync → ∃ b, s.rxStream = b :: t.rxStream ∧
      (b = 0xFF ∧ t.rxState = .secondPreamble ∧ t.status = s.status ∨
        b ≠ 0xFF ∧ s.syncCnt.toNat < 15 ∧ t.rxState = .sync ∧
          t.syncCnt.toNat = s.syncCnt.toNat + 1 ∧ t.status = s.status ∨
        b ≠ 0xFF ∧ s.syncCnt.toNat = 15 ∧ t.rxState = .terminal ∧ t.status = .timeout)) ∧
    (s.phase = .rx → s.rxState = .secondPreamble → ∃ b, s.rxStream = b :: t.rxStream ∧
      (b = 0x00 ∧ t.rxState = .length ∧ t.status = s.status ∨
        b ≠ 0x00 ∧ t.rxState = .terminal ∧ t.status = .formatErr)) ∧
    (s.phase = .rx → s.rxState = .length → ∃ b, s.rxStream = b :: t.rxStream ∧
      (2 ≤ b.toNat ∧ t.rxState = .payload ∧ t.rxIdx = 0 ∧ t.status = s.status ∨
        b.toNat < 2 ∧ t.rxState = .terminal ∧ t.status = .formatErr)) ∧
    (s.phase = .rx → s.rxState = .payload → t.status = s.status ∧
      ∃ b, s.rxStream = b :: t.rxStream ∧
        (s.rxIdx.toNat + 2 = s.rlen.toNat ∧ t.rxState = .crc ∨
          s.rxIdx.toNat + 2 ≠ s.rlen.toNat ∧ t.rxState = .payload ∧ t.rxIdx = s.rxIdx + 1)) ∧
    (s.phase = .rx → s.rxState = .crc → t.status = s.status ∧ t.rxState = .validate ∧
      ∃ b, s.rxStream = b :: t.rxStream) ∧
    (s.phase = .rx → s.rxState = .validate → t.rxState = .terminal ∧ t.rxStream = s.rxStream ∧
      (s.chkAcc = s.rcrc ∧ t.status = .ok ∨ s.chkAcc ≠ s.rcrc ∧ t.status = .checksumErr)) ∧
    (s.phase = .rx → s.rxState = .terminal → t.rxState = .terminal ∧ t.rxStream = s.rxStream ∧
      t.phase = .idle ∧ (s.op = .cmd → t.status = s.status)) ∧
    (s.phase = .rx → s.rxState ≠ .terminal → t.phase = .rx)

/-- What an attempt leaves when it is over: the status, the bytes taken from the stream and none beyond,
and the fields where `decode` gives them. -/
def attemptEnds (s t : State) (st : RxStatus) (k : Nat) (f : Option RspFields) : Prop :=
  t.phase = .rx ∧ t.rxState = .terminal ∧ t.status = st ∧ k ≤ s.rxStream.length ∧
    t.rxStream = s.rxStream.drop k ∧
    ∀ fields, f = some fields →
      t.rlen = fields.len ∧ t.rtype = fields.ty ∧ t.rcrc = fields.crc ∧
        fields.payload.length + 2 = fields.len.toNat ∧ t.rxbuf.Holds fields.payload

/-- What a receive attempt leaves alone: the operands, what was sent, the operation and its request type,
the host's pending acts. -/
def attemptKeeps (s t : State) : Prop :=
  t.txtype = s.txtype ∧ t.plen = s.plen ∧ t.rawlen = s.rawlen ∧ t.txbuf = s.txbuf ∧
    t.txHist = s.txHist ∧ t.op = s.op ∧ t.reqType = s.reqType ∧ t.respValid = s.respValid ∧
    t.hostq = s.hostq ∧ t.sched = s.sched ∧ t.returned = s.returned

/-- 42_decode.md R159: a receive attempt, taken step by step from decoder entry, is `decode` of the
receive stream: it ends with the status, byte count and fields `decode` gives, or it is stuck after
taking every byte. -/
def Obligations.DecoderRunsAsDecode : Prop :=
  ∀ s : State, s.sched = [] → s.phase = .rx → s.rxState = .sync → s.syncCnt = 0 →
    (∀ st k f, decodeStream s.rxStream = .done st k f → ∃ n t,
      runSteps n s = .next t ∧ attemptEnds s t st k f ∧ attemptKeeps s t) ∧
    (∀ k, decodeStream s.rxStream = .blocked k → k = s.rxStream.length ∧ ∃ t,
      runSteps k s = .next t ∧ t.phase = .rx ∧ t.rxStream = [] ∧
        attemptKeeps s t ∧ step t = .fault .stuck)

/-- 42_decode.md R160: the bytes an attempt takes, with `d` the number discarded before the `0xFF`; nothing
beyond them matters. -/
def Obligations.DecodeConsumesTheCountedBytes : Prop :=
  ∀ (s : List Byte) (st : RxStatus) (k : Nat) (f : Option RspFields),
    decodeStream s = .done st k f →
      k ≤ s.length ∧
      (st = .timeout ∧ k = 16 ∧ (∀ b ∈ s.take 16, b ≠ 0xFF) ∨
        ∃ d, d ≤ 15 ∧ (∀ b ∈ s.take d, b ≠ 0xFF) ∧ s[d]? = some 0xFF ∧
          (st = .formatErr ∧ k = d + 2 ∧ s[d + 1]? ≠ some 0x00 ∨
            s[d + 1]? = some 0x00 ∧ ∃ len : Byte, s[d + 2]? = some len ∧
              (st = .formatErr ∧ k = d + 3 ∧ len.toNat < 2 ∨
                (st = .ok ∨ st = .checksumErr) ∧ k = d + 3 + len.toNat ∧ 2 ≤ len.toNat ∧
                  5 ≤ k ∧ k ≤ 273))) ∧
      (st = .ok ↔ f.isSome) ∧
      ∀ more, decodeStream (s.take k ++ more) = .done st k f

/-- 42_decode.md R163: decoding what `encodeCommand` produced gives OK and the same type and payload, with
no byte left over, for every type and every payload of 0 to 253 bytes, also with up to 15 bytes other
than `0xFF` in front. -/
def Obligations.DecodeOfEncodeIsTheFrame : Prop :=
  ∀ (junk : List Byte) (ty : Byte) (payload : List Byte),
    junk.length ≤ 15 → (∀ b ∈ junk, b ≠ 0xFF) → payload.length ≤ 253 →
      (encodeFrame ty payload).length = payload.length + 5 ∧
      decodeStream (junk ++ encodeFrame ty payload) = .done .ok (junk.length + payload.length + 5)
        (some ⟨lenByte payload.length, ty, payload,
          checksum8 ([0xFF, 0x00, lenByte payload.length, ty] ++ payload)⟩)

/-- 42_decode.md R165: 16 bytes other than `0xFF` yield TIMEOUT whatever follows; 15 such bytes, then a
valid frame, yield OK; fewer than 16 and nothing more leave the attempt waiting. -/
def Obligations.SyncBoundIsSixteenBytes : Prop :=
  ∀ junk : List Byte, (∀ b ∈ junk, b ≠ 0xFF) →
    (∀ more, junk.length = 16 → decodeStream (junk ++ more) = .done .timeout 16 none) ∧
    (∀ ty payload more, junk.length = 15 → payload.length ≤ 253 → ∃ k fields,
      decodeStream (junk ++ encodeFrame ty payload ++ more) = .done .ok k (some fields) ∧
        fields.ty = ty ∧ fields.payload = payload) ∧
    (junk.length < 16 → decodeStream junk = .blocked junk.length)

/-- 42_decode.md R164: once a `0xFF` has been seen the attempt is committed to it: a byte other than
`0x00` after it, or a LEN below 2, ends the attempt there, and the rest of the stream does not matter. -/
def Obligations.NoResynchronisationWithinAnAttempt : Prop :=
  ∀ (junk : List Byte), junk.length ≤ 15 → (∀ b ∈ junk, b ≠ 0xFF) →
    (∀ b more, b ≠ 0x00 →
      decodeStream (junk ++ 0xFF :: b :: more) = .done .formatErr (junk.length + 2) none) ∧
    (∀ (len : Byte) more, len.toNat < 2 →
      decodeStream (junk ++ 0xFF :: 0x00 :: len :: more) = .done .formatErr (junk.length + 3) none)

/-! ### COR, statuses, completion -/

/-- 43_dispatch_correlate.md R182: exactly when each status results, and that another status passes
unchanged whatever the types are. -/
def Obligations.CorrelateFollowsTheOrderedTests : Prop :=
  ∀ (st : RxStatus) (req rsp : Byte),
    (st ≠ .ok → correlateTypes st req rsp = st) ∧
    (st = .ok →
      (correlateTypes st req rsp = .zetagErr ↔ rsp = 0xFF) ∧
      (correlateTypes st req rsp = .ok ↔ rsp ≠ 0xFF ∧ (rsp = req ∨ req = 0xF0 ∧ rsp = 0xF1)) ∧
      (correlateTypes st req rsp = .checksumErr ↔
        rsp ≠ 0xFF ∧ rsp ≠ req ∧ ¬(req = 0xF0 ∧ rsp = 0xF1)))

/-- 43_dispatch_correlate.md R187: the completion of an operation can only turn OK into ZETAG_ERR or
CHECKSUM_ERR, and only in a RAW operation; it never turns a failure into OK or into another failure. -/
def Obligations.CorrelationOnlyDowngrades : Prop :=
  ∀ s t : State, s.sched = [] → s.phase = .rx → s.rxState = .terminal → step s = .next t →
    (s.status ≠ .ok → t.status = s.status) ∧
    (s.op = .cmd → t.status = s.status) ∧
    (t.status ≠ s.status → s.op = .raw ∧ s.status = .ok ∧
      (t.status = .zetagErr ∨ t.status = .checksumErr))

/-- 60_exceptions.md R235: no step writes SIZE_ERR, and a state reached by a step from one that meets the
invariants never shows it. -/
def Obligations.SizeErrIsNeverProduced : Prop :=
  (∀ s t : State, s.sched = [] → s.status ≠ .sizeErr → step s = .next t → t.status ≠ .sizeErr) ∧
  (∀ s t : State, s.Inv → step s = .next t → t.respValid = true → t.status ≠ .sizeErr)

/-- 60_exceptions.md R236: ZETAG_ERR has one cause: in a RAW operation, DEC gave OK and the response type
was `0xFF`. A CMD returns such a response as it is. -/
def Obligations.ZetagErrHasOneCause : Prop :=
  ∀ s t : State, s.sched = [] → s.phase ≠ .idle → step s = .next t →
    (s.status ≠ .zetagErr → t.status = .zetagErr →
      s.phase = .rx ∧ s.rxState = .terminal ∧ s.op = .raw ∧ s.status = .ok ∧ s.rtype = 0xFF) ∧
    (s.phase = .rx → s.rxState = .terminal → s.op = .raw → s.status = .ok → s.rtype = 0xFF →
      t.status = .zetagErr ∧ t.rlen = s.rlen ∧ t.rtype = s.rtype ∧ t.rcrc = s.rcrc ∧
        t.rxbuf = s.rxbuf) ∧
    (s.phase = .rx → s.rxState = .terminal → s.op = .cmd → t.status = s.status)

/-! ### The host -/

/-- 10_state.md R22 and 30_encoding.md R98: what a host read of STAT returns in any phase; the codes of
the statuses; STATUS is unconstrained while `resp_valid = 0`. -/
def Obligations.StatShowsTheFlags : Prop :=
  (∀ (s : State) (q : List HostItem), s.hostq = .read 1 :: q → s.sched = [.host] →
    ∃ (w : HostWord) (t : State), step s = .next t ∧ t.returned = s.returned ++ [.word w] ∧
      t.hostq = q ∧ t.phase = s.phase ∧ t.status = s.status ∧ t.respValid = s.respValid ∧
      (w.getLsbD 0 = true ↔ s.phase ≠ .idle) ∧ (w.getLsbD 1 = true ↔ s.respValid = true) ∧
      w.toNat < 32 ∧
      (s.respValid = true → w.extractLsb' 2 3 = statusCode s.status)) ∧
  (statusCode .ok = 0 ∧ statusCode .timeout = 1 ∧ statusCode .sizeErr = 2 ∧
    statusCode .zetagErr = 3 ∧ statusCode .checksumErr = 4 ∧ statusCode .formatErr = 5)

/-- Host reads and writes of the operand registers and of TXBUF while the engine is idle
(10_state.md R23 to R25, R27, R42): a write is what a later read returns, and every other byte of TXBUF
reads as before. A register takes the low bits of the word (log entry 7). -/
def Obligations.HostLoadsTheOperands : Prop :=
  ∀ (s : State) (q : List HostItem), s.phase = .idle → s.sched = [] →
    (∀ v, s.hostq = .write 2 v :: q → step s = .next { s with hostq := q, txtype := v.setWidth 8 }) ∧
    (∀ v, s.hostq = .write 3 v :: q → step s = .next { s with hostq := q, plen := v.setWidth 8 }) ∧
    (∀ v, s.hostq = .write 4 v :: q → step s = .next { s with hostq := q, rawlen := v.setWidth 9 }) ∧
    (s.hostq = .read 0 :: q →
      step s = .next { s with hostq := q, returned := s.returned ++ [.word 0] }) ∧
    (s.hostq = .read 2 :: q →
      step s = .next { s with hostq := q, returned := s.returned ++ [.byte s.txtype] }) ∧
    (s.hostq = .read 3 :: q →
      step s = .next { s with hostq := q, returned := s.returned ++ [.byte s.plen] }) ∧
    (s.hostq = .read 4 :: q → ∃ w : HostWord, w.toNat = s.rawlen.toNat ∧
      step s = .next { s with hostq := q, returned := s.returned ++ [.word w] }) ∧
    (∀ i b, i < 258 → s.hostq = .txbufWrite i b :: q → ∃ m : Memory,
      (∀ j, m.readByte j = if j = i then some b else s.txbuf.readByte j) ∧
        step s = .next { s with hostq := q, txbuf := m }) ∧
    (∀ i b, i < 258 → s.hostq = .txbufRead i :: q → s.txbuf.readByte i = some b →
      step s = .next { s with hostq := q, returned := s.returned ++ [.byte b] })

/-- 10_state.md R26 and R27, 43_dispatch_correlate.md R188: a host read of RLEN, RTYPE, RCRC and of
`RXBUF[i]`, `i < RLEN - 2`, returns the response where it may be relied on; otherwise, and past the
payload, it returns a free value. When it may be relied on is the model's reading (log entry 6). -/
def Obligations.ResponseReadsFollowTheirStatus : Prop :=
  ∀ (s : State) (q : List HostItem), s.phase = .idle → s.sched = [] →
    (s.respValid = true → (s.status = .ok ∨ s.status = .zetagErr ∨
        (s.status = .checksumErr ∧ s.chkAcc = s.rcrc)) →
      (s.hostq = .read 5 :: q →
        step s = .next { s with hostq := q, returned := s.returned ++ [.byte s.rlen] }) ∧
      (s.hostq = .read 6 :: q →
        step s = .next { s with hostq := q, returned := s.returned ++ [.byte s.rtype] }) ∧
      (s.hostq = .read 7 :: q →
        step s = .next { s with hostq := q, returned := s.returned ++ [.byte s.rcrc] }) ∧
      (∀ i b, i < 253 → i + 2 < s.rlen.toNat → s.rxbuf.readByte i = some b →
        s.hostq = .rxbufRead i :: q →
          step s = .next { s with hostq := q, returned := s.returned ++ [.byte b] })) ∧
    (∀ item, s.hostq = item :: q →
      (s.respValid = false ∨ s.status = .timeout ∨ s.status = .formatErr ∨
          (s.status = .checksumErr ∧ s.chkAcc ≠ s.rcrc)) ∧
        (item = .read 5 ∨ item = .read 6 ∨ item = .read 7 ∨ ∃ i, i < 253 ∧ item = .rxbufRead i) ∨
      (∃ i, i < 253 ∧ s.rlen.toNat ≤ i + 2 ∧ item = .rxbufRead i) →
      step s = .next
        { s with
          hostq := q
          returned := s.returned ++ [.byte (Config.freeBits 8 s.freeCtr)]
          freeCtr := s.freeCtr + 1 })

/-- The accesses that make no sense (10_state.md R42, 92_eei_decisions.md D22) are refused, each under a
name of its own. -/
def Obligations.SenselessAccessesAreRefused : Prop :=
  ∀ (s : State) (q : List HostItem), s.phase = .idle → s.sched = [] →
    (∀ n v, n = 1 ∨ n = 5 ∨ n = 6 ∨ n = 7 → s.hostq = .write n v :: q →
      step s = .refused .readOnlyRegister) ∧
    (∀ n v, 7 < n → s.hostq = .write n v :: q → step s = .refused .hregOutOfRange) ∧
    (∀ n, 7 < n → s.hostq = .read n :: q → step s = .refused .hregOutOfRange) ∧
    (∀ i b, 257 < i → s.hostq = .txbufWrite i b :: q → step s = .refused .bufferIndexOutOfRange) ∧
    (∀ i, 257 < i → s.hostq = .txbufRead i :: q → step s = .refused .bufferIndexOutOfRange) ∧
    (∀ i b, i ≤ 252 → s.hostq = .rxbufWrite i b :: q → step s = .refused .readOnlyRegister) ∧
    (∀ i b, 252 < i → s.hostq = .rxbufWrite i b :: q →
      step s = .refused .bufferIndexOutOfRange) ∧
    (∀ i, 252 < i → s.hostq = .rxbufRead i :: q → step s = .refused .bufferIndexOutOfRange)

/-- 20_memory.md R71: while `phase` is not IDLE no host act but a read of STAT completes: at the host's
turn nothing happens, with no turn listed the engine moves; once `phase` is IDLE the act proceeds. A read
of STAT completes in every phase. (An act that stands for bytes the transport supplies is no host access;
log entry 11.) -/
def Obligations.HostWaitsWhileBusy : Prop :=
  (∀ (s : State) (item : HostItem) (q : List HostItem), s.hostq = item :: q → item ≠ .read 1 →
    (∀ bytes, item ≠ .received bytes) →
    (s.phase ≠ .idle → ∀ r, s.sched = .host :: r → step s = .next { s with sched := r }) ∧
    (s.phase ≠ .idle → s.sched = [] → ∀ t, step s = .next t → t.hostq = s.hostq ∧ engineMove s = .next t) ∧
    (s.phase = .idle → s.sched = [] → step s = runItem item { s with hostq := q })) ∧
  (∀ (s : State) (q : List HostItem) (r : List Turn), s.hostq = .read 1 :: q → s.sched = .host :: r →
    ∃ t, step s = .next t ∧ t.hostq = q ∧ t.sched = r ∧ t.phase = s.phase)

/-- 20_memory.md R71, of the instructions: a start asked for while the engine is busy is "neither lost nor
overlapped: it waits", first among the host's pending acts, and nothing else changes (log entry 10).
The names are those of every instruction that starts an operation. -/
def Obligations.BusyStartsWait : Prop :=
  ∀ s : State, s.phase ≠ .idle →
    exec .nop s = .next { s with hostq := .write 0 0 :: s.hostq } ∧
    exec .cmd s = .next { s with hostq := .write 0 1 :: s.hostq } ∧
    exec .raw s = .next { s with hostq := .write 0 2 :: s.hostq } ∧
    (∀ i bytes, encode i = some (.frame .raw bytes) →
      exec i s = .next { s with hostq := .verbatim bytes :: s.hostq }) ∧
    (∀ i ty payload, encode i = some (.frame .cmd (encodeFrame ty payload)) →
      exec i s = .next { s with hostq := .command ty payload :: s.hostq }) ∧
    (∀ i, (i = .getProtocolVersion ∨ (∃ m, i = .setOperatingMode m) ∨ (∃ d, i = .setTxPower d) ∨
        (∃ k, i = .setChannelSpacing k) ∨ (∃ h c f, i = .setFrequency h c f) ∨
        (∃ m, i = .setTxMode m) ∨ (∃ b r, i = .transmitApplicationData (b :: r))) →
      exec i s = .next { s with hostq := .call i :: s.hostq })

/-- 20_memory.md R73: a host read that completes changes nothing but the list of values handed to the
host (and the count of free values drawn). -/
def Obligations.HostReadsHaveNoSideEffects : Prop :=
  ∀ (item : HostItem) (s t : State),
    ((∃ n, item = .read n) ∨ (∃ i, item = .txbufRead i) ∨ (∃ i, item = .rxbufRead i) ∨
      (∃ k, item = .collect k)) → runItem item s = .next t →
      (∃ v, t.returned = s.returned ++ [v]) ∧
        t = { s with returned := t.returned, freeCtr := t.freeCtr }

/-! ### The whole machine -/

/-- 10_state.md R40: no step of the engine changes an operand register, TXBUF, or anything of the host's. -/
def Obligations.EngineNeverWritesOperands : Prop :=
  ∀ s t : State, engineMove s = .next t →
    t.txtype = s.txtype ∧ t.plen = s.plen ∧ t.rawlen = s.rawlen ∧ t.txbuf = s.txbuf ∧
      t.hostq = s.hostq ∧ t.sched = s.sched ∧ t.returned = s.returned

/-- 20_memory.md R67 and R68: what was sent only grows, by at most one byte a step and only in the TX
phase; the receive stream loses at most its first byte, and only in the RX phase; so within an operation
every transmitted byte precedes every byte taken. -/
def Obligations.TransmitPrecedesReceive : Prop :=
  ∀ s t : State, engineMove s = .next t →
    (s.phase = .idle → t = s) ∧
    (s.phase = .tx → t.rxStream = s.rxStream ∧ ∃ b, t.txHist = s.txHist ++ [b]) ∧
    (s.phase = .rx → t.txHist = s.txHist ∧
      (t.rxStream = s.rxStream ∨ ∃ b, s.rxStream = b :: t.rxStream))

/-- 10_state.md R28: the transitions of `phase`: a start, the last transmitted byte, completion, reset. -/
def Obligations.PhaseTransitionsAreTheFour : Prop :=
  ∀ s t : State, step s = .next t →
    t.phase = s.phase ∨
    (s.phase = .idle ∧ t.phase = .tx ∧ t.txPos = 0 ∧ t.respValid = false) ∨
    (s.phase = .tx ∧ t.phase = .rx ∧ (∃ b, t.txHist = s.txHist ++ [b]) ∧
      (s.op = .cmd ∧ s.txPos.toNat = s.plen.toNat + 4 ∨
        s.op = .raw ∧ s.txPos.toNat + 1 = s.rawlen.toNat)) ∨
    (s.phase = .rx ∧ s.rxState = .terminal ∧ t.phase = .idle ∧ t.respValid = true) ∨
    (∃ r, s.sched = .reset :: r ∧ t.phase = .idle)

/-- 70_reset_and_hazards.md R260 and R261: reset, asserted at any time, abandons what is in progress: IDLE,
TERMINAL, `resp_valid` 0; the transport keeps what was sent and what waits. What the other registers hold
then is a free value and is not stated. That the host's pending acts, the remaining turns and the returned
values outlive the reset, and that an unspecified buffer byte is one that holds no value, is the model's
choice (log entries 4, 5) and not R260's. -/
def Obligations.ResetInputAbandonsTheOperation : Prop :=
  ∀ (s : State) (r : List Turn), s.sched = .reset :: r → ∃ t, step s = .next t ∧
    t.phase = .idle ∧ t.rxState = .terminal ∧ t.respValid = false ∧ t.txHist = s.txHist ∧
    t.rxStream = s.rxStream ∧ t.hostq = s.hostq ∧ t.sched = r ∧ t.returned = s.returned ∧
    (∀ i, t.txbuf.readByte i = none) ∧ ∀ i, t.rxbuf.readByte i = none

/-- 10_state.md R39, the values the spec gives: after reset `phase` is IDLE, `rx_state` TERMINAL,
`resp_valid` 0, so STAT reads BUSY = 0 and RESP_VALID = 0; and the machine does nothing until the host
acts (70_reset_and_hazards.md R260). -/
def Obligations.ResetStateIsIdle : Prop :=
  State.reset.phase = .idle ∧ State.reset.rxState = .terminal ∧ State.reset.respValid = false ∧
  State.reset.statWord.getLsbD 0 = false ∧ State.reset.statWord.getLsbD 1 = false ∧
  step State.reset = .next State.reset

/-- The state after reset meets the invariants. -/
def Obligations.ResetStateMeetsTheInvariants : Prop := State.reset.Inv

/-- 10_state.md R41: every step keeps the invariants (a) to (g), the canonical form of the two buffers, and
that a response that may be relied on is whole and carries the checksum of the rest. -/
def Obligations.StepKeepsTheInvariants : Prop :=
  ∀ s t : State, s.Inv → step s = .next t → t.Inv

/-- In a state that meets the invariants a busy engine goes on or waits for a byte: it is never without
an enabled step and never meets a situation the spec gives no meaning (41_encode.md R132, 42_decode.md
R150, 20_memory.md R64). -/
def Obligations.BusyEngineGoesOnOrWaits : Prop :=
  ∀ s : State, s.Inv → s.sched = [] → s.phase ≠ .idle → engineSafe (step s)

/-! ### Frames -/

/-- A frame the transport supplies is appended to the receive stream, byte for byte, whatever the engine
is doing (10_state.md R38, 30_encoding.md R80, R86; log entry 11). Every FRAME row is covered: the
instructions whose code is a frame are `frMac`, `frVersion`, `frSetTxMode`, `frTxPower`, `frRadioParam`,
`frOpMode`, `frAppData`, `frChSpaceSet`, `frChSpaceQry`, `frError` and `frAny`. -/
def Obligations.ReceivedFramesJoinTheStream : Prop :=
  ∀ (i : Instr) (bytes : List Byte) (s : State), encode i = some (.frame .rx bytes) →
    exec i s = .next { s with rxStream := s.rxStream ++ bytes }

/-- A well-formed frame sent by CMD from an idle engine, of any of the eleven FRAME rows (`frMac`,
`frVersion`, `frSetTxMode`, `frTxPower`, `frRadioParam`, `frOpMode`, `frAppData`, `frChSpaceSet`,
`frChSpaceQry`, `frError`, `frAny`), is the frame ENC makes of its type and payload, and starts that CMD
(30_encoding.md R86, 43_dispatch_correlate.md R180; log entry 11). -/
def Obligations.FramesSentByCmdStartTheirCmd : Prop :=
  ∀ (i : Instr) (bytes : List Byte) (s : State), i.wf = true →
    encode i = some (.frame .cmd bytes) → s.phase = .idle →
      ∃ ty payload, payload.length ≤ 253 ∧ bytes = encodeFrame ty payload ∧
        cmdIsStarted ty payload [] s (exec i s)

/-- A well-formed frame sent by RAW from an idle engine, of any of the eleven FRAME rows, starts a RAW of exactly its bytes, unchecked
(30_encoding.md R86, 43_dispatch_correlate.md R181, 41_encode.md R140; log entry 11). -/
def Obligations.FramesSentByRawStartTheirRaw : Prop :=
  ∀ (i : Instr) (bytes : List Byte) (s : State), i.wf = true →
    encode i = some (.frame .raw bytes) → s.phase = .idle →
      4 ≤ bytes.length ∧ bytes.length ≤ 258 ∧ ∃ m : Memory,
        (∀ j, m.readByte j = if j < bytes.length then bytes[j]? else s.txbuf.readByte j) ∧
        exec i s = .next
          { s with
            rawlen := BitVec.ofNat 9 bytes.length
            txbuf := m
            op := .raw
            txPos := 0
            respValid := false
            phase := .tx }

/-! ### Device operations -/

/-- 44_device_operations.md R211 to R214, R216, R217 and R219, from an idle engine: the type and payload
each operation sends by one CMD, after which its caller takes what it returns (log entry 13).
Application data is truncated to 30 bytes, returns nothing, and with an empty input starts no operation
at all, in any phase. -/
def Obligations.DeviceOperationsSendTheirPayloads : Prop :=
  (∀ x lo hi : Int, clamp x lo hi = if x < lo then lo else if x > hi then hi else x) ∧
  (∀ s : State, exec (.transmitApplicationData []) s = .next s) ∧
  ∀ s : State, s.phase = .idle →
    cmdIsStarted 0x02 [] [.collect .version] s (exec .getProtocolVersion s) ∧
    cmdIsStarted 0x44 [0x01, 0x00, 0x01] [.collect .status] s (exec (.setOperatingMode .test) s) ∧
    cmdIsStarted 0x44 [0x00] [.collect .status] s (exec (.setOperatingMode .normal) s) ∧
    (∀ dB : Int, ∃ b : Byte, (b.toNat : Int) = 2 * clamp dB 1 10 ∧
      cmdIsStarted 0x41 [b] [.collect .status] s (exec (.setTxPower dB) s)) ∧
    (∀ kHz : Int, ∃ b : Byte, (b.toNat : Int) = clamp kHz 100 200 ∧
      cmdIsStarted 0xF0 [b] [.collect .status] s (exec (.setChannelSpacing kHz) s)) ∧
    cmdIsStarted 0x42 [0x01] [.collect .status] s (exec (.setTxMode .fsk4) s) ∧
    (∀ m, m ≠ .fsk4 → cmdIsStarted 0x42 [0x10] [.collect .status] s (exec (.setTxMode m) s)) ∧
    (∀ bytes, bytes ≠ [] → (bytes.take 30).length = min bytes.length 30 ∧
      cmdIsStarted 0x80 (bytes.take 30) [] s (exec (.transmitApplicationData bytes) s))

/-- 44_device_operations.md R215, from an idle engine: sub-mode, four frequency bytes most significant
first, and for more than one channel the count and one byte a channel, whatever CH_INDEX_BASE (0 or 1)
and the mapping of stepKHz are. -/
def Obligations.SetFrequencySendsItsPayload : Prop :=
  ∀ (hz count : Int) (fs : FreqStep) (s : State), s.phase = .idle →
    ∃ (f3 f2 f1 f0 : Byte) (payload : List Byte),
      (f3.toNat * 16777216 + f2.toNat * 65536 + f1.toNat * 256 + f0.toNat : Int)
        = clamp hz 470000000 928000000 ∧
      (clamp count 1 6 = 1 → payload = [0x00, f3, f2, f1, f0]) ∧
      (clamp count 1 6 ≠ 1 → ∃ (base step : Int) (c : Byte) (chans : List Byte),
        (base = 0 ∨ base = 1) ∧ (step = 1 ∨ step = 2) ∧
        (∀ n, fs = .units n → step = clamp n 1 2) ∧
        (c.toNat : Int) = clamp count 1 6 ∧ chans.length = c.toNat ∧
        (∀ (k : Nat) (b : Byte), chans[k]? = some b → (b.toNat : Int) = ((k : Int) + base) * step % 256) ∧
        payload = [0x01, f3, f2, f1, f0, c] ++ chans) ∧
      cmdIsStarted 0x40 payload [.collect .status] s (exec (.setFrequency hz count fs) s)

/-- What a device operation returns once its CMD has completed (44_device_operations.md R210, R211): the
status, or the version packed from the response by the OPEN function VERSION_PACK (log entries 13
and 15). Nothing else changes but, for the version, the count of free values drawn. -/
def Obligations.DeviceOperationsReturnTheirStatus : Prop :=
  ∀ (s : State) (q : List HostItem), s.phase = .idle → s.sched = [] → s.respValid = true →
    (s.hostq = .collect .status :: q →
      step s = .next { s with hostq := q, returned := s.returned ++ [.status s.status] }) ∧
    (s.hostq = .collect .version :: q → ∃ n, step s = .next
      { s with
        hostq := q
        returned := s.returned ++ [.byte (Config.versionPack s.response)]
        freeCtr := n })

/-! ### Whole operations -/

/-- 43_dispatch_correlate.md R189, CMD: started by a CTRL write, with payload `p` in TXBUF, the operation
sends `encodeCommand(TXTYPE, p)` and, where `decode` of the receive stream is done, completes with
exactly that response and has taken exactly that many bytes; where it is blocked, the operation is stuck
and never completes. -/
def Obligations.CmdOperationIsItsFunction : Prop :=
  ∀ (s : State) (p : List Byte) (q : List HostItem), s.sched = [] → s.phase = .idle →
    s.hostq = .write 0 1 :: q → p.length ≤ 253 → s.plen.toNat = p.length → s.txbuf.Holds p →
    (∀ st k f, decodeStream s.rxStream = .done st k f → ∃ n t, runSteps n s = .next t ∧
      t.phase = .idle ∧ t.respValid = true ∧ t.response = ⟨st, f⟩ ∧
      t.txHist = s.txHist ++ encodeFrame s.txtype p ∧ t.rxStream = s.rxStream.drop k ∧
      t.txtype = s.txtype ∧ t.plen = s.plen ∧ t.rawlen = s.rawlen ∧ t.txbuf = s.txbuf ∧
      t.hostq = q ∧ t.returned = s.returned) ∧
    (∀ k, decodeStream s.rxStream = .blocked k → ∃ n t, runSteps n s = .next t ∧
      t.phase = .rx ∧ t.respValid = false ∧ t.rxStream = [] ∧
      t.txHist = s.txHist ++ encodeFrame s.txtype p ∧ step t = .fault .stuck)

/-- 43_dispatch_correlate.md R189, RAW: the operation sends the given bytes and completes with the status
`correlate` gives of the decoder's status, the byte at offset 3 of what was sent and the response's type. -/
def Obligations.RawOperationIsItsFunction : Prop :=
  ∀ (s : State) (bytes : List Byte) (req : Byte) (q : List HostItem), s.sched = [] →
    s.phase = .idle → s.hostq = .write 0 2 :: q → 4 ≤ bytes.length → bytes.length ≤ 258 →
    s.rawlen.toNat = bytes.length → s.txbuf.Holds bytes → bytes[3]? = some req →
    (∀ st k f, decodeStream s.rxStream = .done st k f → ∃ n t, runSteps n s = .next t ∧
      t.phase = .idle ∧ t.respValid = true ∧
      (∀ fields, f = some fields → t.response = ⟨correlateTypes st req fields.ty, f⟩) ∧
      (f = none → t.response = ⟨st, none⟩) ∧
      t.txHist = s.txHist ++ bytes ∧ t.rxStream = s.rxStream.drop k ∧
      t.txtype = s.txtype ∧ t.plen = s.plen ∧ t.rawlen = s.rawlen ∧ t.txbuf = s.txbuf ∧
      t.hostq = q ∧ t.returned = s.returned) ∧
    (∀ k, decodeStream s.rxStream = .blocked k → ∃ n t, runSteps n s = .next t ∧
      t.phase = .rx ∧ t.respValid = false ∧ t.rxStream = [] ∧
      t.txHist = s.txHist ++ bytes ∧ step t = .fault .stuck)
end

