-- ==== Sys2Proof/Laws/PerInstr.lean ====
section
/-! SUPPORT. Statements made once for each instruction. Family Encoding: what the code of a well-formed
instruction looks like (30_encoding.md R80, R83, R99). -/

namespace Sys2Proof.Laws.Encoding

/-- A well-formed instruction's code, where it has one, is a CTRL word of two bits or a frame that starts
with the two preamble bytes and has 4 to 258 bytes. -/
def Statement (i : Instr) : Prop :=
  i.wf = true → ∀ c, encode i = some c →
    (∀ v, c = .ctrl v → v.toNat < 4) ∧
      ∀ via bytes, c = .frame via bytes →
        bytes.take 2 = [0xFF, 0x00] ∧ 4 ≤ bytes.length ∧ bytes.length ≤ 258

/-- What every frame row shares. -/
theorem statement_of_frame {i : Instr} {via : Via} {ty len : Byte} {rest : List Byte}
    (hw : i.wf = true → frameWf via ty len rest = true)
    (he : encode i = some (.frame via (frameBytes ty len rest))) : Statement i := by
  intro h c hc
  rw [he, Option.some.injEq] at hc
  subst hc
  refine ⟨by simp, ?_⟩
  rintro v bytes ⟨⟩
  have hl := len.isLt
  have hr := hw h
  simp only [frameWf, Bool.and_eq_true, beq_iff_eq] at hr
  simp [frameBytes, Machine.frameHeader, Config.preamble0, Config.preamble1]
  omega

theorem nop : Statement .nop := by
  intro _ c hc
  cases hc
  exact ⟨by rintro v ⟨⟩; decide, by rintro _ _ ⟨⟩⟩

theorem cmd : Statement .cmd := by
  intro _ c hc
  cases hc
  exact ⟨by rintro v ⟨⟩; decide, by rintro _ _ ⟨⟩⟩

theorem raw : Statement .raw := by
  intro _ c hc
  cases hc
  exact ⟨by rintro v ⟨⟩; decide, by rintro _ _ ⟨⟩⟩

theorem opselReserved : Statement .opselReserved := by
  intro _ c hc
  cases hc
  exact ⟨by rintro v ⟨⟩; decide, by rintro _ _ ⟨⟩⟩

theorem frMac (via : Via) (len : Byte) (rest : List Byte) : Statement (.frMac via len rest) :=
  statement_of_frame id rfl

theorem frVersion (via : Via) (len : Byte) (rest : List Byte) :
    Statement (.frVersion via len rest) :=
  statement_of_frame id rfl

theorem frSetTxMode (via : Via) (len : Byte) (rest : List Byte) :
    Statement (.frSetTxMode via len rest) :=
  statement_of_frame id rfl

theorem frTxPower (via : Via) (len : Byte) (rest : List Byte) :
    Statement (.frTxPower via len rest) :=
  statement_of_frame id rfl

theorem frRadioParam (via : Via) (len : Byte) (rest : List Byte) :
    Statement (.frRadioParam via len rest) :=
  statement_of_frame id rfl

theorem frOpMode (via : Via) (len : Byte) (rest : List Byte) : Statement (.frOpMode via len rest) :=
  statement_of_frame id rfl

theorem frAppData (via : Via) (len : Byte) (rest : List Byte) :
    Statement (.frAppData via len rest) :=
  statement_of_frame id rfl

theorem frChSpaceSet (via : Via) (len : Byte) (rest : List Byte) :
    Statement (.frChSpaceSet via len rest) :=
  statement_of_frame id rfl

theorem frChSpaceQry (via : Via) (len : Byte) (rest : List Byte) :
    Statement (.frChSpaceQry via len rest) :=
  statement_of_frame id rfl

theorem frError (via : Via) (len : Byte) (rest : List Byte) : Statement (.frError via len rest) :=
  statement_of_frame id rfl

theorem frAny (via : Via) (ty len : Byte) (rest : List Byte) : Statement (.frAny via ty len rest) :=
  statement_of_frame (fun h => (Bool.and_eq_true_iff.1 h).2) rfl

theorem checksum8 (bytes : List Byte) : Statement (.checksum8 bytes) := by
  intro _ c hc
  cases hc

theorem chkLoad (v : Byte) : Statement (.chkLoad v) := by
  intro _ c hc
  cases hc

theorem chkAdd (b : Byte) : Statement (.chkAdd b) := by
  intro _ c hc
  cases hc

theorem encodeCommand (ty : Byte) (payload : List Byte) :
    Statement (.encodeCommand ty payload) := by
  intro _ c hc
  cases hc

theorem decode (stream : List Byte) : Statement (.decode stream) := by
  intro _ c hc
  cases hc

theorem correlate (st : RxStatus) (reqType rspType : Byte) :
    Statement (.correlate st reqType rspType) := by
  intro _ c hc
  cases hc

theorem txCmdPreamble0 : Statement .txCmdPreamble0 := by
  intro _ c hc
  cases hc

theorem txCmdPreamble1 : Statement .txCmdPreamble1 := by
  intro _ c hc
  cases hc

theorem txCmdLen : Statement .txCmdLen := by
  intro _ c hc
  cases hc

theorem txCmdType : Statement .txCmdType := by
  intro _ c hc
  cases hc

theorem txCmdPayload : Statement .txCmdPayload := by
  intro _ c hc
  cases hc

theorem txCmdCrc : Statement .txCmdCrc := by
  intro _ c hc
  cases hc

theorem txRawByte : Statement .txRawByte := by
  intro _ c hc
  cases hc

theorem rxSync : Statement .rxSync := by
  intro _ c hc
  cases hc

theorem rxSecondPreamble : Statement .rxSecondPreamble := by
  intro _ c hc
  cases hc

theorem rxLength : Statement .rxLength := by
  intro _ c hc
  cases hc

theorem rxPayload : Statement .rxPayload := by
  intro _ c hc
  cases hc

theorem rxCrc : Statement .rxCrc := by
  intro _ c hc
  cases hc

theorem rxValidate : Statement .rxValidate := by
  intro _ c hc
  cases hc

theorem complete : Statement .complete := by
  intro _ c hc
  cases hc

theorem getProtocolVersion : Statement .getProtocolVersion := by
  intro _ c hc
  cases hc

theorem setOperatingMode (mode : OperatingMode) : Statement (.setOperatingMode mode) := by
  intro _ c hc
  cases hc

theorem setTxPower (dB : Int) : Statement (.setTxPower dB) := by
  intro _ c hc
  cases hc

theorem setChannelSpacing (kHz : Int) : Statement (.setChannelSpacing kHz) := by
  intro _ c hc
  cases hc

theorem setFrequency (hz channelCount : Int) (step : FreqStep) :
    Statement (.setFrequency hz channelCount step) := by
  intro _ c hc
  cases hc

theorem setTxMode (mode : TxMode) : Statement (.setTxMode mode) := by
  intro _ c hc
  cases hc

theorem transmitApplicationData (bytes : List Byte) :
    Statement (.transmitApplicationData bytes) := by
  intro _ c hc
  cases hc

end Sys2Proof.Laws.Encoding
end

