-- ==== Sys2Proof/Tests/Slice0.lean ====
section
/-! SUPPORT. The model's own tests. Expected values are those of spec/95_test_vectors.md (the vector's
name stands in the docstring) or written out from the rule named. First the well-formedness smoke,
then decoding, then single steps, then for each obligation a concrete input that meets its
hypotheses. -/

namespace Sys2Proof.Tests

open Sys2Proof Sys2Proof.Machine

/-- The next state of an answer, if it is one. -/
def next? : Result → Option State
  | .next t => some t
  | .fault _ | .refused _ => none

def fault? : Result → Option Fault
  | .fault f => some f
  | .next _ | .refused _ => none

def refusal? : Result → Option Refusal
  | .refused r => some r
  | .next _ | .fault _ => none

/-- What a field of the next state is. -/
def after {α : Type} (r : Result) (f : State → α) : Option α := (next? r).map f

/-- The idle machine with host acts pending. -/
def idleWith (q : List HostItem) : State := { State.reset with hostq := q }

/-- The engine transmitting a CMD of type `0x41` at a position, `payload` in TXBUF. -/
def cmdAt (pos : Nat) (payload : List Byte) : State :=
  { loadCmd 0x41 payload State.reset with phase := .tx, op := .cmd, txPos := BitVec.ofNat 9 pos }

/-- The engine transmitting a RAW at a position. -/
def rawAt (pos : Nat) (bytes : List Byte) : State :=
  { loadRaw bytes State.reset with phase := .tx, op := .raw, txPos := BitVec.ofNat 9 pos }

/-- The engine in a receive state, a stream waiting. -/
def rxAt (st : RxState) (stream : List Byte) : State :=
  { State.reset with phase := .rx, rxState := st, rxStream := stream }

/-- 95_test_vectors.md V-E1. -/
def frameE1 : List Byte := [0xFF, 0x00, 0x03, 0x41, 0x14, 0x57]

/-! ### Well-formedness: an ill-formed term for each check -/

theorem test_wf_restTooShort : (Instr.frVersion .raw 0x03 [0x03]).wf = false := by decide
theorem test_wf_restTooLong : (Instr.frMac .rx 0x00 [0x00]).wf = false := by decide
theorem test_wf_cmdLenBelowTwo : (Instr.frTxPower .cmd 0x01 []).wf = false := by decide
theorem test_wf_cmdWrongCrc : (Instr.frTxPower .cmd 0x03 [0x14, 0xBB]).wf = false := by decide
theorem test_wf_anyRegisteredType : (Instr.frAny .raw 0x41 0x02 [0x42]).wf = false := by decide
theorem test_wf_anyRestLength : (Instr.frAny .raw 0x10 0x02 []).wf = false := by decide
theorem test_wf_payloadTooLong :
    (Instr.encodeCommand 0x41 (List.replicate 254 0)).wf = false := by
  simp only [Instr.wf, Config.maxPlen, List.length_replicate]; decide
theorem test_wf_accepts : (Instr.frTxPower .cmd 0x03 [0x14, 0x57]).wf = true := by decide

/-! ### Decoding: words written out from 30_encoding.md R80, R87 to R97, R99 -/

theorem test_decode_hostop :
    decode (.ctrl 0b00) = .ok (.nop, []) ∧ decode (.ctrl 0b01) = .ok (.cmd, []) ∧
      decode (.ctrl 0b10) = .ok (.raw, []) ∧ decode (.ctrl 0b11) = .ok (.opselReserved, []) :=
  ⟨rfl, rfl, rfl, rfl⟩

/-- V-E1, V-E2, V-E6 and the registry's types, header bytes and body in wire order. -/
theorem test_decode_frames :
    decode (.frame .raw [0xFF, 0x00, 0x02, 0x01, 0x02]) = .ok (.frMac .raw 2 [0x02], []) ∧
      decode (.frame .raw [0xFF, 0x00, 0x02, 0x02, 0x03]) = .ok (.frVersion .raw 2 [0x03], []) ∧
      decode (.frame .raw [0xFF, 0x00, 0x02, 0x40, 0x41]) =
        .ok (.frSetTxMode .raw 2 [0x41], []) ∧
      decode (.frame .cmd frameE1) = .ok (.frTxPower .cmd 3 [0x14, 0x57], []) ∧
      decode (.frame .raw [0xFF, 0x00, 0x03, 0x42, 0x01, 0x45]) =
        .ok (.frRadioParam .raw 3 [0x01, 0x45], []) ∧
      decode (.frame .raw [0xFF, 0x00, 0x03, 0x44, 0x00, 0x46]) =
        .ok (.frOpMode .raw 3 [0x00, 0x46], []) := ⟨rfl, rfl, rfl, rfl, rfl, rfl⟩

/-- V-O17's type, V-E10, V-E11, V-E9, V-E5. -/
theorem test_decode_moreFrames :
    decode (.frame .raw [0xFF, 0x00, 0x02, 0x80, 0x81]) = .ok (.frAppData .raw 2 [0x81], []) ∧
      decode (.frame .raw [0xFF, 0x00, 0x03, 0xF0, 0x64, 0x56]) =
        .ok (.frChSpaceSet .raw 3 [0x64, 0x56], []) ∧
      decode (.frame .rx [0xFF, 0x00, 0x03, 0xF1, 0x64, 0x57]) =
        .ok (.frChSpaceQry .rx 3 [0x64, 0x57], []) ∧
      decode (.frame .rx [0xFF, 0x00, 0x03, 0xFF, 0x07, 0x08]) =
        .ok (.frError .rx 3 [0x07, 0x08], []) ∧
      decode (.frame .rx [0xFF, 0x00, 0x05, 0x10, 0xFF, 0xFF, 0xFF, 0x11]) =
        .ok (.frAny .rx 0x10 5 [0xFF, 0xFF, 0xFF, 0x11], []) := ⟨rfl, rfl, rfl, rfl, rfl⟩

/-- The words of spec/opcode_table.json, its bits numbered as the table numbers them. -/
theorem test_decode_tableWords :
    decodeTableWord 2 1 = some .cmd ∧ decodeTableWord 8 3 = some .opselReserved ∧
      decodeTableWord 32 0xFF000202 = some (.frVersion .raw 2 [0x00]) ∧
      decodeTableWord 32 0xFF000041 = some (.frTxPower .raw 0 []) ∧
      decodeTableWord 32 0xFE000041 = none := ⟨rfl, rfl, rfl, rfl, rfl⟩

theorem test_encode_registry :
    encode (.frTxPower .cmd 3 [0x14, 0x57]) = some (.frame .cmd frameE1) ∧
      encode .raw = some (.ctrl 2) := ⟨rfl, rfl⟩

/-- The first instruction after reset, placed by the fetch: a RAW of the VERSION header starts. -/
theorem test_fetchWord_frame :
    after (step (State.reset.withFetchWord 32 0xFF000202)) (fun t => (t.phase, t.rawlen)) =
      some (.tx, 5) := by decide
theorem test_fetchWord_nop : next? (step (State.reset.withFetchWord 2 0)) = some State.reset := by
  decide

/-- 41_encode.md R140: RAW sends what it is given; here no frame, and a frame with a byte after it. -/
theorem test_verbatim_unchecked :
    after (step (idleWith [.verbatim [0x01, 0x02, 0x03, 0x04]])) (fun t => (t.phase, t.rawlen)) =
        some (.tx, 4) ∧
      after (step (idleWith [.verbatim (frameE1 ++ [0xFF])])) (fun t => (t.phase, t.rawlen)) =
        some (.tx, 7) := by decide

/-! ### HOSTOP -/

/-- 30_encoding.md R99: no effect of any kind. -/
theorem test_nop : next? (exec .nop (idleWith [])) = some (idleWith []) := by decide
/-- P1, step 1. -/
theorem test_cmd : after (exec .cmd (loadCmd 0x41 [0x14] State.reset))
    (fun t => (t.phase, t.txPos, t.chkAcc, t.respValid)) = some (.tx, 0, 0x00, false) := by decide
/-- P6 (b). -/
theorem test_cmd_plen254 :
    refusal? (exec .cmd { State.reset with plen := 254 }) = some .plenOutOfRange := by decide
/-- R181: RAWLEN 4 to 258. -/
theorem test_raw_limits :
    refusal? (exec .raw { State.reset with rawlen := 3 }) = some .rawlenOutOfRange ∧
      refusal? (exec .raw { State.reset with rawlen := 259 }) = some .rawlenOutOfRange := by decide
theorem test_raw : after (exec .raw { State.reset with rawlen := 258, chkAcc := 7 })
    (fun t => (t.phase, t.op, t.chkAcc)) = some (.tx, .raw, 7) := by decide
/-- R100. -/
theorem test_opselReserved : refusal? (exec .opselReserved State.reset) = some .opselReserved := by
  decide

/-! ### FRAME -/

theorem test_frMac_rx : after (exec (.frMac .rx 2 [0x02]) (rxAt .sync [0x55])) State.rxStream =
    some [0x55, 0xFF, 0x00, 0x02, 0x01, 0x02] := by decide
/-- V-E2. -/
theorem test_frVersion_cmd : after (exec (.frVersion .cmd 2 [0x03]) State.reset)
    (fun t => (t.txtype, t.plen, t.phase)) = some (0x02, 0, .tx) := by decide
theorem test_frSetTxMode_raw : after (exec (.frSetTxMode .raw 2 [0x41]) State.reset)
    (fun t => (t.op, t.rawlen, t.txbuf.readByte 3)) = some (.raw, 5, some 0x40) := by decide
/-- V-E1. -/
theorem test_frTxPower_cmd : after (exec (.frTxPower .cmd 3 [0x14, 0x57]) State.reset)
    (fun t => (t.txtype, t.plen, t.txbuf)) = some (0x41, 1, [(0, 0x14)]) := by decide
theorem test_frRadioParam_raw : after (exec (.frRadioParam .raw 3 [0x01, 0x45]) State.reset)
    (fun t => t.txbuf.readByte 5) = some (some 0x45) := by decide
theorem test_frOpMode_busy : after (exec (.frOpMode .cmd 3 [0x00, 0x46]) (rxAt .sync []))
    (fun t => (t.hostq, t.phase)) =
      some ([.command 0x44 [0x00]], .rx) := by decide
theorem test_frAppData_cmd : after (exec (.frAppData .cmd 2 [0x81]) State.reset)
    (fun t => (t.txtype, t.plen)) = some (0x80, 0) := by decide
/-- P2 (a). -/
theorem test_frChSpaceSet_raw : after (exec (.frChSpaceSet .raw 3 [0x64, 0x56]) State.reset)
    (fun t => (t.rawlen, t.txbuf.readByte 3)) = some (6, some 0xF0) := by decide
theorem test_frChSpaceQry_rx : after (exec (.frChSpaceQry .rx 3 [0x64, 0x57]) State.reset)
    State.rxStream = some [0xFF, 0x00, 0x03, 0xF1, 0x64, 0x57] := by decide
/-- P2 (c). -/
theorem test_frError_rx : after (exec (.frError .rx 3 [0x07, 0x08]) State.reset) State.rxStream =
    some [0xFF, 0x00, 0x03, 0xFF, 0x07, 0x08] := by decide
/-- The shortest frame RAW can send, LEN 0. -/
theorem test_frAny_raw : after (exec (.frAny .raw 0x10 0 []) State.reset)
    (fun t => (t.rawlen, t.phase)) = some (4, .tx) := by decide

/-! ### FUNC -/

/-- V-C10. -/
theorem test_checksum8 : after (exec (.checksum8 [0xFF, 0x00, 0x03, 0x41, 0x14]) State.reset)
    State.returned = some [.byte 0x57] := by decide
/-- V-C11: a swap is not detected. -/
theorem test_checksum8_swap : checksum8 [0xFF, 0x00, 0x04, 0x41, 0x01, 0x02] = 0x47 ∧
    checksum8 [0xFF, 0x00, 0x04, 0x41, 0x02, 0x01] = 0x47 := by decide
theorem test_chkLoad : after (exec (.chkLoad 0xFF) State.reset) State.chkAcc = some 0xFF := by
  decide
/-- V-C4. -/
theorem test_chkAdd : after (exec (.chkAdd 0x01) { State.reset with chkAcc := 0xFF })
    State.chkAcc = some 0x00 := by decide
/-- V-E5. -/
theorem test_encodeCommand :
    after (exec (.encodeCommand 0x10 [0xFF, 0xFF, 0xFF]) State.reset) State.returned =
      some [.frame [0xFF, 0x00, 0x05, 0x10, 0xFF, 0xFF, 0xFF, 0x11]] := by decide
/-- V-E4: the CRC wraps to `00`. -/
theorem test_encodeFrame_error : encodeFrame 0xFF [] = [0xFF, 0x00, 0x02, 0xFF, 0x00] := by decide
/-- V-D19 and V-D22. -/
theorem test_decode_func :
    decodeStream [0xFF, 0x00, 0x02, 0x02, 0x03, 0xAA, 0xBB] =
        .done .ok 5 (some ⟨0x02, 0x02, [], 0x03⟩) ∧
      decodeStream [0xFF, 0x00, 0x05, 0x41, 0x14, 0x57] = .blocked 6 := by decide
/-- V-D5, V-D7, V-D8, V-D13. -/
theorem test_decode_failures :
    decodeStream (List.replicate 16 0x01 ++ frameE1) = .done .timeout 16 none ∧
      decodeStream (0xFF :: frameE1) = .done .formatErr 2 none ∧
      decodeStream [0xFF, 0x00, 0x01] = .done .formatErr 3 none ∧
      decodeStream [0xFF, 0x00, 0x03, 0x41, 0x14, 0xBB] = .done .checksumErr 6 none := by decide
/-- V-K2, V-K3, V-K8, V-K13. -/
theorem test_correlate :
    correlateTypes .ok 0xF0 0xF1 = .ok ∧ correlateTypes .ok 0xF1 0xF0 = .checksumErr ∧
      correlateTypes .ok 0xFF 0xFF = .zetagErr ∧ correlateTypes .timeout 0x41 0xFF = .timeout := by
  decide
theorem test_correlate_exec : after (exec (.correlate .ok 0x41 0x44) State.reset) State.returned =
    some [.status .checksumErr] := by decide

/-! ### STEP, transmit: the trace of V-E1 -/

theorem test_txCmdPreamble0 : after (exec .txCmdPreamble0 (cmdAt 0 [0x14]))
    (fun t => (t.txHist, t.chkAcc, t.txPos)) = some ([0xFF], 0xFF, 1) := by decide
theorem test_txCmdPreamble1 : after (exec .txCmdPreamble1 { cmdAt 1 [0x14] with chkAcc := 0xFF })
    (fun t => (t.txHist, t.chkAcc, t.txPos)) = some ([0x00], 0xFF, 2) := by decide
theorem test_txCmdLen : after (exec .txCmdLen { cmdAt 2 [0x14] with chkAcc := 0xFF })
    (fun t => (t.txHist, t.chkAcc, t.txPos)) = some ([0x03], 0x02, 3) := by decide
theorem test_txCmdType : after (exec .txCmdType { cmdAt 3 [0x14] with chkAcc := 0x02 })
    (fun t => (t.txHist, t.chkAcc, t.reqType, t.txPos)) = some ([0x41], 0x43, 0x41, 4) := by decide
theorem test_txCmdPayload : after (exec .txCmdPayload { cmdAt 4 [0x14] with chkAcc := 0x43 })
    (fun t => (t.txHist, t.chkAcc, t.txPos)) = some ([0x14], 0x57, 5) := by decide
theorem test_txCmdPayload_none : fault? (exec .txCmdPayload (cmdAt 4 [])) = some .notEnabled := by
  decide
theorem test_txCmdCrc : after (exec .txCmdCrc { cmdAt 5 [0x14] with chkAcc := 0x57 })
    (fun t => (t.txHist, t.chkAcc, t.phase, t.rxState, t.syncCnt)) =
      some ([0x57], 0x57, .rx, .sync, 0) := by decide
/-- P2 (a): the byte at offset 3 is the request type; the last byte enters the decoder. -/
theorem test_txRawByte : after (exec .txRawByte (rawAt 3 [0xFF, 0x00, 0x03, 0xF0, 0x64, 0x56]))
    (fun t => (t.txHist, t.reqType, t.txPos, t.phase)) = some ([0xF0], 0xF0, 4, .tx) := by decide
theorem test_txRawByte_last :
    after (exec .txRawByte (rawAt 5 [0xFF, 0x00, 0x03, 0xF0, 0x64, 0x56]))
      (fun t => (t.txHist, t.reqType, t.txPos, t.phase)) = some ([0x56], 0x00, 5, .rx) := by decide

/-! ### STEP, receive: the trace of V-D1, and the failures -/

theorem test_rxSync : after (exec .rxSync (rxAt .sync frameE1))
    (fun t => (t.chkAcc, t.rxState, t.rxStream.length)) = some (0xFF, .secondPreamble, 5) := by
  decide
/-- V-D4: the 16th wrong byte. -/
theorem test_rxSync_timeout : after (exec .rxSync { rxAt .sync [0x01] with syncCnt := 15 })
    (fun t => (t.status, t.rxState, t.rxStream)) = some (.timeout, .terminal, []) := by decide
theorem test_rxSecondPreamble :
    after (exec .rxSecondPreamble { rxAt .secondPreamble [0x00] with chkAcc := 0xFF })
      (fun t => (t.chkAcc, t.rxState)) = some (0xFF, .length) := by decide
/-- V-D7. -/
theorem test_rxSecondPreamble_noise : after (exec .rxSecondPreamble (rxAt .secondPreamble [0xFF]))
    (fun t => (t.status, t.rxState)) = some (.formatErr, .terminal) := by decide
theorem test_rxLength : after (exec .rxLength { rxAt .length [0x03] with chkAcc := 0xFF })
    (fun t => (t.rlen, t.chkAcc, t.rxIdx, t.rxState)) = some (0x03, 0x02, 0, .payload) := by decide
/-- V-D8. -/
theorem test_rxLength_one : after (exec .rxLength (rxAt .length [0x01]))
    (fun t => (t.status, t.rxState)) = some (.formatErr, .terminal) := by decide
theorem test_rxPayload_type :
    after (exec .rxPayload { rxAt .payload [0x41] with rlen := 3, chkAcc := 0x02 })
      (fun t => (t.rtype, t.chkAcc, t.rxIdx, t.rxState)) = some (0x41, 0x43, 1, .payload) := by
  decide
theorem test_rxPayload_last :
    after (exec .rxPayload { rxAt .payload [0x14] with rlen := 3, rxIdx := 1, chkAcc := 0x43 })
      (fun t => (t.rxbuf, t.chkAcc, t.rxIdx, t.rxState)) = some ([(0, 0x14)], 0x57, 1, .crc) := by
  decide
theorem test_rxCrc : after (exec .rxCrc { rxAt .crc [0x57] with chkAcc := 0x57 })
    (fun t => (t.rcrc, t.chkAcc, t.rxState)) = some (0x57, 0x57, .validate) := by decide
theorem test_rxCrc_silence : fault? (exec .rxCrc (rxAt .crc [])) = some .stuck := by decide
/-- V-D13: computed `57`, received `BB`. -/
theorem test_rxValidate :
    after (exec .rxValidate { rxAt .validate [] with chkAcc := 0x57, rcrc := 0x57 }) State.status =
        some .ok ∧
      after (exec .rxValidate { rxAt .validate [] with chkAcc := 0x57, rcrc := 0xBB })
        State.status = some .checksumErr := by decide
/-- P1, step 15: STAT reads `02`. -/
theorem test_complete : after (exec .complete (rxAt .terminal []))
    (fun t => (t.phase, t.respValid, t.status, t.statWord)) = some (.idle, true, .ok, 0x02) := by
  decide
/-- P2 (c): STAT reads `0E`. -/
theorem test_complete_cor :
    after (exec .complete { rxAt .terminal [] with op := .raw, reqType := 0x41, rtype := 0xFF })
      (fun t => (t.status, t.statWord)) = some (.zetagErr, 0x0E) := by decide

/-! ### PSEUDO -/

/-- V-O1. -/
theorem test_getProtocolVersion : after (exec .getProtocolVersion State.reset)
    (fun t => (t.txtype, t.plen, t.hostq)) = some (0x02, 0, [.collect .version]) := by decide
/-- V-O2. -/
theorem test_setOperatingMode : after (exec (.setOperatingMode .test) State.reset)
    (fun t => (t.txtype, t.txbuf)) = some (0x44, [(0, 0x01), (1, 0x00), (2, 0x01)]) := by decide
/-- S7. -/
theorem test_setTxPower : txPowerPayload 0 = [0x02] ∧ txPowerPayload 99 = [0x14] := by decide
theorem test_setTxPower_exec : after (exec (.setTxPower (-3)) State.reset)
    (fun t => (t.txtype, t.txbuf)) = some (0x41, [(0, 0x02)]) := by decide
/-- V-O8, V-O9. -/
theorem test_setChannelSpacing :
    after (exec (.setChannelSpacing 150) State.reset) (fun t => (t.txtype, t.txbuf)) =
        some (0xF0, [(0, 0x96)]) ∧
      channelSpacingPayload 999 = [0xC8] := by decide
/-- V-O12. -/
theorem test_setFrequency : after (exec (.setFrequency 920600000 1 (.units 2)) State.reset)
    (fun t => (t.txtype, t.txbuf)) =
      some (0x40, [(0, 0x00), (1, 0x36), (2, 0xDF), (3, 0x3D), (4, 0xC0)]) := by decide
/-- V-O13 and V-O14: the open parameter CH_INDEX_BASE at its two values. -/
theorem test_frequencyPayload_channels :
    frequencyPayloadAt 0 920600000 3 2 =
        [0x01, 0x36, 0xDF, 0x3D, 0xC0, 0x03, 0x00, 0x02, 0x04] ∧
      frequencyPayloadAt 1 920600000 3 2 =
        [0x01, 0x36, 0xDF, 0x3D, 0xC0, 0x03, 0x02, 0x04, 0x06] := by decide
/-- V-O15, V-O16. -/
theorem test_setTxMode :
    after (exec (.setTxMode .fsk4) State.reset) (fun t => (t.txtype, t.txbuf)) =
        some (0x42, [(0, 0x01)]) ∧
      txModePayload .other = [0x10] := by decide
/-- S8. -/
theorem test_transmitApplicationData_45 :
    after (exec (.transmitApplicationData ((List.range 45).map (BitVec.ofNat 8))) State.reset)
      (fun t => (t.txtype, t.plen, t.hostq)) = some (0x80, 30, []) := by decide
theorem test_transmitApplicationData_0 :
    next? (exec (.transmitApplicationData []) State.reset) = some State.reset := by decide

/-! ### The host's accesses -/

/-- P1's RXBUF read, P6's STAT write. -/
theorem test_host_rxbuf :
    after (runItem (.rxbufRead 0)
      { State.reset with respValid := true, rlen := 3, rxbuf := [(0, 0x14)] }) State.returned =
        some [.byte 0x14] ∧
      refusal? (runItem (.write 1 0) State.reset) = some .readOnlyRegister := by decide
theorem test_host_txbufWrite : after (runItem (.txbufWrite 257 0xAA) State.reset) State.txbuf =
    some [(257, 0xAA)] := by decide

/-! ### Witnesses: for each obligation with hypotheses, inputs that meet them together, each clause at the
ends of its range -/

/-- All hypotheses hold of a list of inputs. -/
def meets {α : Type} (l : List α) (p : α → Bool) : Bool := l.all p

/-- The answer goes on. -/
def goesOn (r : Result) : Bool := (next? r).isSome

theorem witness_DecodeInvertsEncode :
    (Instr.frTxPower .cmd 3 [0x14, 0x57]).wf = true ∧ (Instr.frAny .raw 0x10 0 []).wf = true ∧
      encode (.frTxPower .cmd 3 [0x14, 0x57]) = some (.frame .cmd frameE1) ∧
      encode (.frAny .raw 0x10 0 []) = some (.frame .raw [0xFF, 0x00, 0x00, 0x10]) ∧
      Instr.raw.wf = true ∧ encode .raw = some (.ctrl 2) := by decide

theorem witness_EncodeInvertsDecode :
    decode (.frame .rx (frameE1 ++ [0x00])) = .ok (.frTxPower .rx 3 [0x14, 0x57], [0x00]) ∧
      decode (.ctrl 0xFFFF) = .ok (.opselReserved, []) := ⟨rfl, rfl⟩

theorem witness_HostFetchRunsDecodedInstruction :
    meets [HostItem.write 0 1, .verbatim frameE1, .received frameE1, .command 0x41 [0x14],
        .call (.setTxPower 5)]
        (fun a => (idleWith [a]).phase = .idle ∧ (idleWith [a]).sched = [] ∧
          (idleWith [a]).hostq = [a]) = true ∧
      decode (.ctrl 1) = .ok (.cmd, []) ∧
      decode (.frame .raw frameE1) = .ok (.frTxPower .raw 3 [0x14, 0x57], []) ∧
      decode (.frame .rx frameE1) = .ok (.frTxPower .rx 3 [0x14, 0x57], []) ∧
      decode (.frame .cmd (encodeFrame 0x41 [0x14])) =
        .ok (.frTxPower .cmd 3 [0x14, 0x57], []) ∧
      (Instr.setTxPower 5).hostCallable = true := ⟨by decide, rfl, rfl, rfl, rfl, rfl⟩

/-- No frame, a frame with a byte after it, and the bounds of R131 and R181. -/
theorem witness_HandedOverBytesHaveTheirEffect :
    meets [HostItem.verbatim [0x01, 0x02, 0x03, 0x04], .verbatim (frameE1 ++ [0xFF]),
        .verbatim [0xFF, 0x00, 0x02], .received [0x55], .command 0xFF [], .call .rxSync]
        (fun a => (idleWith [a]).phase = .idle ∧ (idleWith [a]).sched = [] ∧
          (idleWith [a]).hostq = [a]) = true ∧
      (List.replicate 258 (0 : Byte)).length ≤ 258 ∧ 258 < (List.replicate 259 (0 : Byte)).length ∧
      (List.replicate 253 (0 : Byte)).length ≤ 253 ∧ 253 < (List.replicate 254 (0 : Byte)).length ∧
      Instr.rxSync.hostCallable = false ∧
      ({ cmdAt 0 [] with hostq := [.received [0x55]], sched := [.host] } : State).sched = [.host] := by
  simp only [List.length_replicate]; decide

theorem witness_EngineStepRunsSelectedInstruction :
    meets [cmdAt 0 [1, 2], cmdAt 1 [1, 2], cmdAt 2 [1, 2], cmdAt 3 [1, 2], cmdAt 4 [1, 2],
        cmdAt 5 [1, 2], cmdAt 6 [1, 2], cmdAt 4 []]
        (fun s => s.sched = [] ∧ s.phase = .tx ∧ s.op = .cmd) = true ∧
      ((cmdAt 5 [1, 2]).txPos.toNat = (cmdAt 5 [1, 2]).plen.toNat + 3 ∧
        (cmdAt 6 [1, 2]).txPos.toNat = (cmdAt 6 [1, 2]).plen.toNat + 4 ∧
        (cmdAt 4 []).txPos.toNat = (cmdAt 4 []).plen.toNat + 4) ∧
      ((rawAt 0 [1, 2, 3, 4]).phase = .tx ∧ (rawAt 0 [1, 2, 3, 4]).op = .raw) ∧
      meets [RxState.sync, .secondPreamble, .length, .payload, .crc, .validate, .terminal]
        (fun st => (rxAt st []).phase = .rx ∧ (rxAt st []).rxState = st) = true := by decide

theorem witness_InternalStepsNeedTheirCondition :
    isStepRow .txRawByte ∧ engineInstr (rawAt 0 [1, 2, 3, 4]) = some .txRawByte ∧
      engineInstr State.reset ≠ some .txRawByte := ⟨trivial, rfl, by decide⟩

theorem witness_FunctionRowsHandBackTheirValue :
    (List.replicate 253 (0 : Byte)).length ≤ 253 ∧ 253 < (List.replicate 254 (0 : Byte)).length := by
  simp only [List.length_replicate]; decide

theorem witness_ChecksumAccumulatesByteByByte :
    State.reset.chkAcc = checksum8 [] ∧
      ({ State.reset with chkAcc := 0x02 } : State).chkAcc = checksum8 [0xFF, 0x00, 0x03] := by decide

theorem witness_ChecksumIgnoresOrderAndSeesOneChange :
    ([0x01, 0x02] : List Byte).Perm [0x02, 0x01] ∧
      (([0xFF, 0x01] : List Byte).map BitVec.toNat).sum % 256 =
        (([0x00] : List Byte).map BitVec.toNat).sum % 256 ∧
      ([0x41, 0x14] : List Byte)[1]? = some 0x14 ∧ (0x14 : Byte) ≠ 0x15 ∧
      (0x58 : Byte) ≠ checksum8 ([0xFF, 0x00, lenByte 1, 0x41] ++ [0x14]) := by decide

theorem witness_EncodeCommandBuildsTheFrame :
    (List.replicate 253 (0 : Byte)).length ≤ 253 ∧ encodeFrame 0x02 [] = encodeFrame 0x02 [] :=
  ⟨by simp only [List.length_replicate]; decide, rfl⟩

theorem witness_StartsTakeEffectWhenIdle :
    State.reset.phase = .idle ∧ ({ State.reset with plen := 253 } : State).plen.toNat ≤ 253 ∧
      4 ≤ ({ State.reset with rawlen := 4 } : State).rawlen.toNat ∧
      ({ State.reset with rawlen := 258 } : State).rawlen.toNat ≤ 258 := by decide

theorem witness_StartsOutsideTheirDomainAreRefused :
    State.reset.phase = .idle ∧ 253 < ({ State.reset with plen := 254 } : State).plen.toNat ∧
      ({ State.reset with rawlen := 3 } : State).rawlen.toNat < 4 ∧
      258 < ({ State.reset with rawlen := 259 } : State).rawlen.toNat := by decide

theorem witness_CmdHeaderBytesAreSent :
    meets [cmdAt 0 [], cmdAt 1 [], cmdAt 2 [], cmdAt 3 []]
        (fun s => s.phase = .tx ∧ s.op = .cmd) = true ∧
      (cmdAt 0 []).txPos = 0 ∧ (cmdAt 1 []).txPos = 1 ∧ (cmdAt 2 []).txPos = 2 ∧
      (cmdAt 3 []).txPos = 3 ∧ ({ cmdAt 2 [] with plen := 253 } : State).plen.toNat ≤ 253 ∧
      253 < ({ cmdAt 2 [] with plen := 254 } : State).plen.toNat := by decide

theorem witness_CmdPayloadByteIsSent :
    (cmdAt 4 [0x14]).txbuf.readByte ((cmdAt 4 [0x14]).txPos.toNat - 4) = some 0x14 ∧
      4 ≤ (cmdAt 4 [0x14]).txPos.toNat ∧
      (cmdAt 4 [0x14]).txPos.toNat ≤ (cmdAt 4 [0x14]).plen.toNat + 3 ∧
      (cmdAt 5 [0x01, 0x02]).txbuf.readByte 1 = some 0x02 ∧
      (cmdAt 5 [0x01, 0x02]).txPos.toNat = (cmdAt 5 [0x01, 0x02]).plen.toNat + 3 ∧
      (cmdAt 4 []).plen = 0 := by decide

theorem witness_CmdCrcByteEntersTheDecoder :
    (cmdAt 5 [0x14]).phase = .tx ∧ (cmdAt 5 [0x14]).op = .cmd ∧
      (cmdAt 5 [0x14]).txPos.toNat = (cmdAt 5 [0x14]).plen.toNat + 4 ∧
      (cmdAt 4 []).txPos.toNat = (cmdAt 4 []).plen.toNat + 4 := by decide

theorem witness_RawByteIsSentVerbatim :
    (rawAt 3 [1, 2, 3, 4]).phase = .tx ∧ (rawAt 3 [1, 2, 3, 4]).op = .raw ∧
      (rawAt 3 [1, 2, 3, 4]).txbuf.readByte 3 = some 4 ∧
      (rawAt 3 [1, 2, 3, 4]).txPos.toNat + 1 = (rawAt 3 [1, 2, 3, 4]).rawlen.toNat ∧
      (rawAt 0 [1, 2, 3, 4]).txbuf.readByte 0 = some 1 ∧
      (rawAt 0 [1, 2, 3, 4]).txPos.toNat + 1 < (rawAt 0 [1, 2, 3, 4]).rawlen.toNat := by decide

theorem witness_UnwrittenOperandBytesAreFree :
    ({ cmdAt 4 [] with plen := 1 } : State).phase = .tx ∧
      4 ≤ ({ cmdAt 4 [] with plen := 1 } : State).txPos.toNat ∧
      ({ cmdAt 4 [] with plen := 1 } : State).txPos.toNat ≤ 1 + 3 ∧
      (cmdAt 4 []).txbuf.readByte 0 = none ∧
      (rawAt 0 []).phase = .tx ∧ (rawAt 0 []).op = .raw ∧
      (rawAt 0 []).txbuf.readByte (rawAt 0 []).txPos.toNat = none := by decide

/-- A started CMD with no payload meets the invariants. -/
theorem inv_cmdAt_0 : (cmdAt 0 []).Inv := by
  have h : (cmdAt 0 []).rxState = .terminal ∧ (cmdAt 0 []).phase = .tx ∧
      (cmdAt 0 []).respValid = false ∧ (cmdAt 0 []).responseReliable = false := by decide
  constructor <;> try simp only [h, reduceCtorEq, or_self, false_implies, implies_true]
  all_goals decide

/-- An attempt that has ended with TIMEOUT meets the invariants. -/
def timedOut : State := { rxAt .terminal [] with status := .timeout }

theorem inv_timedOut : timedOut.Inv := by
  have h : timedOut.rxState = .terminal ∧ timedOut.phase = .rx ∧ timedOut.respValid = false ∧
      timedOut.status = .timeout ∧ timedOut.responseReliable = false := by decide
  constructor <;> try simp only [h, reduceCtorEq, or_self, false_implies, implies_true, decStatus]
  all_goals decide

theorem witness_TransmitPhaseCannotFail :
    (cmdAt 0 []).Inv ∧ (cmdAt 0 []).sched = [] ∧ (cmdAt 0 []).phase = .tx := ⟨inv_cmdAt_0, rfl, rfl⟩

theorem witness_TransmitPhaseSendsTheFrame :
    (cmdAt 0 [0x14]).sched = [] ∧ (cmdAt 0 [0x14]).phase = .tx ∧ (cmdAt 0 [0x14]).op = .cmd ∧
      (cmdAt 0 [0x14]).txPos = 0 ∧ (cmdAt 0 [0x14]).chkAcc = 0 ∧ (cmdAt 0 [0x14]).plen.toNat = 1 ∧
      (cmdAt 0 [0x14]).txbuf.Holds [0x14] ∧ (cmdAt 0 []).txbuf.Holds [] ∧
      (rawAt 0 [1, 2, 3, 4]).sched = [] ∧ (rawAt 0 [1, 2, 3, 4]).phase = .tx ∧
      (rawAt 0 [1, 2, 3, 4]).op = .raw ∧ (rawAt 0 [1, 2, 3, 4]).txPos = 0 ∧
      (rawAt 0 [1, 2, 3, 4]).rawlen.toNat = 4 ∧ (rawAt 0 [1, 2, 3, 4]).txbuf.Holds [1, 2, 3, 4] ∧
      ([1, 2, 3, 4] : List Byte)[3]? = some 4 := by
  unfold Memory.Holds; decide

theorem witness_SyncSearchesForThePreamble :
    (rxAt .sync [0xFF]).phase = .rx ∧ (rxAt .sync [0xFF]).rxState = .sync ∧
      (rxAt .sync [0xFF]).rxStream = [0xFF] ∧
      ({ rxAt .sync [0x00] with syncCnt := 15 } : State).syncCnt.toNat = 15 ∧
      ({ rxAt .sync [0x00] with syncCnt := 14 } : State).syncCnt.toNat < 15 ∧
      (0x00 : Byte) ≠ 0xFF := by decide

theorem witness_HeaderErrorsAreFormatErrors :
    meets [(0x00 : Byte), 0x01, 0xFF] (fun b => (rxAt .secondPreamble [b]).phase = .rx ∧
        (rxAt .secondPreamble [b]).rxStream = [b]) = true ∧
      meets [(0x00 : Byte), 0x01, 0x02, 0xFF] (fun b => (rxAt .length [b]).phase = .rx ∧
        (rxAt .length [b]).rxStream = [b]) = true ∧
      (0x01 : Byte).toNat < 2 ∧ 2 ≤ (0x02 : Byte).toNat ∧ (0x01 : Byte) ≠ 0x00 := by decide

theorem witness_PayloadCollectsTheSpan :
    meets [({ rxAt .payload [0x41] with rlen := 2 } : State),
        { rxAt .payload [0x41] with rlen := 3 }, { rxAt .payload [0x41] with rlen := 3, rxIdx := 1 },
        { rxAt .payload [0x41] with rlen := 255, rxIdx := 253 }]
      (fun s => s.phase = .rx ∧ s.rxState = .payload ∧ s.rxStream = [0x41] ∧
        s.rxIdx.toNat + 1 < s.rlen.toNat) = true := by decide

theorem witness_CrcIsTakenAndValidated :
    (rxAt .crc [0x57]).phase = .rx ∧ (rxAt .crc [0x57]).rxState = .crc ∧
      (rxAt .crc [0x57]).rxStream = [0x57] ∧ (rxAt .validate []).phase = .rx ∧
      (rxAt .validate []).rxState = .validate := by decide

theorem witness_CompletionEndsTheOperation :
    (rxAt .terminal []).phase = .rx ∧ (rxAt .terminal []).rxState = .terminal := by decide

theorem witness_ReceiveStepsBlockOnSilence :
    meets [RxState.sync, .secondPreamble, .length, .payload, .crc] (fun st =>
      (rxAt st []).sched = [] ∧ (rxAt st []).phase = .rx ∧ (rxAt st []).rxState ≠ .validate ∧
        (rxAt st []).rxState ≠ .terminal ∧ (rxAt st []).rxStream = [] ∧
        (rxAt st [0x00]).rxStream ≠ []) = true := by decide

theorem witness_ReceiveTransitionsAreTheTable :
    meets [State.reset, cmdAt 0 [], cmdAt 4 [], rxAt .sync [0xFF], rxAt .sync [0x00],
        { rxAt .sync [0x00] with syncCnt := 15 }, rxAt .secondPreamble [0x00],
        rxAt .secondPreamble [0xFF], rxAt .length [0x01], rxAt .length [0x02],
        { rxAt .payload [0x41] with rlen := 2 }, { rxAt .payload [0x41] with rlen := 3 },
        rxAt .crc [0x57], rxAt .validate [], rxAt .terminal []]
      (fun s => s.sched = [] ∧ goesOn (step s)) = true := by decide

theorem witness_DecoderRunsAsDecode :
    meets [rxAt .sync frameE1, rxAt .sync []] (fun s =>
        s.sched = [] ∧ s.phase = .rx ∧ s.rxState = .sync ∧ s.syncCnt = 0) = true ∧
      decodeStream frameE1 = .done .ok 6 (some ⟨0x03, 0x41, [0x14], 0x57⟩) ∧
      decodeStream [] = .blocked 0 := by decide

/-- V-D6; V-D7 behind 15 discarded bytes; V-D8; V-D12; V-D24. -/
theorem witness_DecodeConsumesTheCountedBytes :
    decodeStream (List.replicate 16 0x00) = .done .timeout 16 none ∧
      decodeStream (List.replicate 15 0x01 ++ [0xFF, 0xFF]) = .done .formatErr 17 none ∧
      decodeStream [0xFF, 0x00, 0x01] = .done .formatErr 3 none ∧
      decodeStream [0xFF, 0x00, 0x02, 0x41, 0x40] = .done .checksumErr 5 none ∧
      decodeStream [0xFF, 0x00, 0x02, 0xFF, 0x00] =
        .done .ok 5 (some ⟨0x02, 0xFF, [], 0x00⟩) := by decide

theorem witness_DecodeOfEncodeIsTheFrame :
    (List.replicate 15 (0x55 : Byte)).length ≤ 15 ∧ (∀ b ∈ List.replicate 15 (0x55 : Byte), b ≠ 0xFF) ∧
      ([] : List Byte).length ≤ 253 := by decide

theorem witness_SyncBoundIsSixteenBytes :
    (∀ b ∈ List.replicate 16 (0x01 : Byte), b ≠ 0xFF) ∧ (List.replicate 16 (0x01 : Byte)).length = 16 ∧
      (List.replicate 15 (0x01 : Byte)).length = 15 ∧ ([] : List Byte).length < 16 := by decide

theorem witness_NoResynchronisationWithinAnAttempt :
    (List.replicate 15 (0x01 : Byte)).length ≤ 15 ∧ (∀ b ∈ List.replicate 15 (0x01 : Byte), b ≠ 0xFF) ∧
      (0xFF : Byte) ≠ 0x00 ∧ (0x01 : Byte).toNat < 2 := by decide

theorem witness_CorrelateFollowsTheOrderedTests :
    RxStatus.timeout ≠ .ok ∧ correlateTypes .timeout 0x41 0xFF = .timeout ∧
      correlateTypes .ok 0xF0 0xF1 = .ok := by decide

/-- A RAW whose attempt ended with OK and the response type `0xFF`. -/
def errorReport : State := { rxAt .terminal [] with op := .raw, reqType := 0x41, rtype := 0xFF }

theorem witness_CorrelationOnlyDowngrades :
    meets [errorReport, timedOut, rxAt .terminal []] (fun s =>
        s.sched = [] ∧ s.phase = .rx ∧ s.rxState = .terminal ∧ goesOn (step s)) = true ∧
      errorReport.status = .ok ∧ timedOut.status ≠ .ok ∧ (rxAt .terminal []).op = .cmd ∧
      after (step errorReport) State.status = some .zetagErr := by decide

theorem witness_SizeErrIsNeverProduced :
    State.reset.sched = [] ∧ State.reset.status ≠ .sizeErr ∧ goesOn (step State.reset) = true ∧
      timedOut.Inv ∧ after (step timedOut) State.respValid = some true :=
  ⟨rfl, by decide, by decide, inv_timedOut, by decide⟩

theorem witness_ZetagErrHasOneCause :
    meets [errorReport, rxAt .terminal []] (fun s =>
        s.sched = [] ∧ s.phase ≠ .idle ∧ goesOn (step s)) = true ∧
      errorReport.status ≠ .zetagErr ∧ after (step errorReport) State.status = some .zetagErr ∧
      errorReport.op = .raw ∧ errorReport.status = .ok ∧ errorReport.rtype = 0xFF ∧
      (rxAt .terminal []).op = .cmd := by decide

theorem witness_StatShowsTheFlags :
    meets [({ idleWith [.read 1] with sched := [.host], respValid := true } : State),
        { rxAt .sync [] with sched := [.host], hostq := [.read 1] }]
      (fun s => s.hostq = [.read 1] ∧ s.sched = [.host]) = true := by decide

theorem witness_HostLoadsTheOperands :
    meets [HostItem.write 2 0xFFFF, .write 3 0, .write 4 0xFFFF, .read 0, .read 2, .read 3, .read 4,
        .txbufWrite 0 0xAA, .txbufWrite 257 0xAA]
        (fun a => (idleWith [a]).phase = .idle ∧ (idleWith [a]).sched = [] ∧
          (idleWith [a]).hostq = [a]) = true ∧
      ({ idleWith [.txbufRead 257] with txbuf := [(257, 0xAA)] } : State).txbuf.readByte 257 =
        some 0xAA := by decide

/-- The three responses that may be relied on, RXBUF at its last index. -/
theorem witness_ResponseReadsFollowTheirStatus_reliable :
    meets [RxStatus.ok, .zetagErr, .checksumErr] (fun st =>
      let s : State := { idleWith [.rxbufRead 252] with
        respValid := true, status := st, rlen := 255, rxbuf := [(252, 0xE7)] }
      s.phase = .idle ∧ s.sched = [] ∧ s.respValid = true ∧ s.chkAcc = s.rcrc ∧
        252 + 2 < s.rlen.toNat ∧ s.rxbuf.readByte 252 = some 0xE7) = true := by decide

/-- The cases in which a read answers a free value. -/
theorem witness_ResponseReadsFollowTheirStatus_any :
    State.reset.respValid = false ∧
      ({ State.reset with respValid := true, status := .checksumErr, rcrc := 1 } : State).chkAcc ≠ 1 ∧
      ({ State.reset with rlen := 255 } : State).rlen.toNat ≤ 253 + 2 ∧
      ({ State.reset with rlen := 2 } : State).rlen.toNat ≤ 0 + 2 ∧
      ((idleWith [.read 5]).hostq = [.read 5] ∧ (idleWith [.rxbufRead 252]).hostq = [.rxbufRead 252]) := by
  decide

theorem witness_SenselessAccessesAreRefused :
    meets [HostItem.write 1 0, .write 5 0, .write 6 0, .write 7 0, .write 8 0, .read 8,
      .txbufWrite 258 0, .txbufRead 258, .rxbufWrite 252 0, .rxbufWrite 253 0, .rxbufRead 253]
      (fun a => (idleWith [a]).phase = .idle ∧ (idleWith [a]).sched = [] ∧
        (idleWith [a]).hostq = [a]) = true := by decide

theorem witness_HostWaitsWhileBusy :
    ({ rxAt .sync [] with hostq := [.write 0 1], sched := [.host] } : State).phase ≠ .idle ∧
      HostItem.write 0 1 ≠ .read 1 ∧ (∀ bytes, HostItem.write 0 1 ≠ .received bytes) ∧
      goesOn (step { cmdAt 0 [] with hostq := [.write 0 1] }) = true ∧
      (idleWith [.write 0 1]).sched = [] ∧
      ({ rxAt .sync [] with hostq := [.read 1], sched := [.host] } : State).hostq = [.read 1] :=
  ⟨by decide, by decide, (by rintro b ⟨⟩), by decide, rfl, rfl⟩

theorem witness_BusyStartsWait :
    (cmdAt 0 []).phase ≠ .idle ∧
      encode (.frOpMode .cmd 3 [0x00, 0x46]) =
        some (.frame .cmd (encodeFrame 0x44 [0x00])) ∧
      encode (.frMac .raw 0 []) = some (.frame .raw [0xFF, 0x00, 0x00, 0x01]) := by decide

theorem witness_HostReadsHaveNoSideEffects :
    meets [HostItem.read 0, .txbufRead 0, .rxbufRead 0, .collect .status]
      (fun a => goesOn (runItem a State.reset)) = true := by decide

theorem witness_EngineNeverWritesOperands :
    meets [State.reset, cmdAt 3 [], rawAt 3 [1, 2, 3, 4], rxAt .sync [0xFF]]
      (fun s => goesOn (engineMove s)) = true := by decide

theorem witness_TransmitPrecedesReceive :
    meets [State.reset, cmdAt 3 [], rxAt .sync [0xFF], rxAt .validate []]
        (fun s => goesOn (engineMove s)) = true ∧
      State.reset.phase = .idle ∧ (cmdAt 3 []).phase = .tx ∧ (rxAt .sync [0xFF]).phase = .rx := by
  decide

theorem witness_PhaseTransitionsAreTheFour :
    after (step (idleWith [.write 0 1])) State.phase = some .tx ∧
      after (step (cmdAt 4 [])) State.phase = some .rx ∧
      after (step (rxAt .terminal [])) State.phase = some .idle ∧
      goesOn (step { cmdAt 2 [] with sched := [.reset] }) = true := by decide

theorem witness_ResetInputAbandonsTheOperation :
    ({ cmdAt 2 [] with sched := [.reset] } : State).sched = [.reset] := rfl

theorem witness_StepKeepsTheInvariants :
    (cmdAt 0 []).Inv ∧ goesOn (step (cmdAt 0 [])) = true ∧ timedOut.Inv ∧
      goesOn (step timedOut) = true := ⟨inv_cmdAt_0, by decide, inv_timedOut, by decide⟩

theorem witness_BusyEngineGoesOnOrWaits :
    (cmdAt 0 []).Inv ∧ (cmdAt 0 []).sched = [] ∧ (cmdAt 0 []).phase ≠ .idle :=
  ⟨inv_cmdAt_0, rfl, by decide⟩

theorem witness_ReceivedFramesJoinTheStream :
    encode (.frError .rx 3 [0x07, 0x08]) =
      some (.frame .rx [0xFF, 0x00, 0x03, 0xFF, 0x07, 0x08]) := rfl

theorem witness_FramesSentByCmdStartTheirCmd :
    (Instr.frVersion .cmd 2 [0x03]).wf = true ∧
      encode (.frVersion .cmd 2 [0x03]) = some (.frame .cmd [0xFF, 0x00, 0x02, 0x02, 0x03]) ∧
      State.reset.phase = .idle := by decide

theorem witness_FramesSentByRawStartTheirRaw :
    (Instr.frAny .raw 0x10 0 []).wf = true ∧
      encode (.frAny .raw 0x10 0 []) = some (.frame .raw [0xFF, 0x00, 0x00, 0x10]) ∧
      State.reset.phase = .idle := by decide

theorem witness_DeviceOperationsSendTheirPayloads :
    State.reset.phase = .idle ∧ TxMode.other ≠ .fsk4 ∧ TxMode.fsk8reserved ≠ .fsk4 ∧
      ([0x48] : List Byte) ≠ [] := by decide

theorem witness_SetFrequencySendsItsPayload :
    State.reset.phase = .idle ∧ clamp 1 1 6 = 1 ∧ clamp 2 1 6 ≠ 1 ∧ clamp 99 1 6 = 6 := by decide

theorem witness_DeviceOperationsReturnTheirStatus :
    meets [ReturnKind.status, .version] (fun k =>
      let s : State := { idleWith [.collect k] with respValid := true }
      s.phase = .idle ∧ s.sched = [] ∧ s.respValid = true ∧ s.hostq = [.collect k]) = true := by
  decide

/-- P1 before its CTRL write; the same with nothing in the stream. -/
theorem witness_CmdOperationIsItsFunction :
    meets [frameE1, []] (fun stream =>
        let s : State :=
          { loadCmd 0x41 [0x14] (idleWith [.write 0 1]) with rxStream := stream }
        s.sched = [] ∧ s.phase = .idle ∧ s.hostq = [.write 0 1] ∧ s.plen.toNat = 1) = true ∧
      (loadCmd 0x41 [0x14] State.reset).txbuf.Holds [0x14] ∧
      decodeStream frameE1 = .done .ok 6 (some ⟨0x03, 0x41, [0x14], 0x57⟩) ∧
      decodeStream [] = .blocked 0 := by
  unfold Memory.Holds; decide

theorem witness_RawOperationIsItsFunction :
    meets [frameE1, [], [0xFF, 0x01]] (fun stream =>
        let s : State :=
          { loadRaw frameE1 (idleWith [.write 0 2]) with rxStream := stream }
        s.sched = [] ∧ s.phase = .idle ∧ s.hostq = [.write 0 2] ∧ s.rawlen.toNat = 6) = true ∧
      (loadRaw frameE1 State.reset).txbuf.Holds frameE1 ∧ frameE1[3]? = some 0x41 ∧
      decodeStream [0xFF, 0x01] = .done .formatErr 2 none := by
  unfold Memory.Holds; decide

end Sys2Proof.Tests
end

/-! PROOF. The transitions of `phase` (10_state.md R28): every instruction makes a move of `PhaseMove`,
every act of the host does, and so does every step but reset. -/

namespace Sys2Proof.Machine

section PhaseMoves

variable {s t u : State}

/-- The moves of `phase` that 10_state.md R28 allows without reset. -/
inductive PhaseMove (s t : State) : Prop
  | stays (phase : t.phase = s.phase)
  | starts (idle : s.phase = .idle) (tx : t.phase = .tx) (pos : t.txPos = 0)
      (valid : t.respValid = false)
  | sentLast (tx : s.phase = .tx) (rx : t.phase = .rx) (sent : ∃ b, t.txHist = s.txHist ++ [b])
      (last : s.op = .cmd ∧ s.txPos.toNat = s.plen.toNat + 4 ∨
        s.op = .raw ∧ s.txPos.toNat + 1 = s.rawlen.toNat)
  | completes (rx : s.phase = .rx) (terminal : s.rxState = .terminal) (idle : t.phase = .idle)
      (valid : t.respValid = true)

/-- The agents' lists and the count of free values have no part in a move of `phase`. -/
theorem PhaseMove.of_agents {q : List HostItem} {turns : List Turn} {ctr : Nat}
    (h : PhaseMove { s with hostq := q, sched := turns, freeCtr := ctr } t) : PhaseMove s t := by
  cases h with
  | stays h => exact .stays h
  | starts h1 h2 h3 h4 => exact .starts h1 h2 h3 h4
  | sentLast h1 h2 h3 h4 => exact .sentLast h1 h2 h3 h4
  | completes h1 h2 h3 h4 => exact .completes h1 h2 h3 h4

/-- An answer that goes on with a given state moves as that state does. -/
theorem PhaseMove.of_next (h : (.next u : Result) = .next t) (hm : PhaseMove s u) :
    PhaseMove s t := by
  cases h; exact hm

/-- A guarded meaning that goes on has met its guard. -/
theorem ite_eq_next {c : Prop} {_ : Decidable c} {a r : Result} (h : (if c then a else r) = .next t)
    (hr : r ≠ .next t) : c ∧ a = .next t := by
  split at h
  · exact ⟨‹c›, h⟩
  · exact absurd h hr

/-! ### The shared operations that leave `phase` alone -/

@[simp] theorem readCell_phase (m : Memory) (i : Nat) (s : State) :
    (readCell m i s).2.phase = s.phase := by
  rcases readCell_state m i s with e | e <;> simp [e]

@[simp] theorem syncByte_phase (b : Byte) (s : State) : (syncByte b s).phase = s.phase := by
  rcases syncByte_cases b s with ⟨-, e⟩ | ⟨-, -, e⟩ | ⟨-, -, e⟩ <;> simp [e]

@[simp] theorem secondPreambleByte_phase (b : Byte) (s : State) :
    (secondPreambleByte b s).phase = s.phase := by
  rcases secondPreambleByte_cases b s with ⟨-, e⟩ | ⟨-, e⟩ <;> simp [e]

@[simp] theorem lengthByte_phase (b : Byte) (s : State) : (lengthByte b s).phase = s.phase := by
  rcases lengthByte_cases b s with ⟨-, e⟩ | ⟨-, e⟩ <;> simp [e]

@[simp] theorem storeSpanByte_phase (b : Byte) (s : State) :
    (storeSpanByte b s).phase = s.phase := by
  rcases storeSpanByte_cases b s with ⟨-, e⟩ | ⟨-, e⟩ <;> simp [e]

@[simp] theorem payloadByte_phase (b : Byte) (s : State) : (payloadByte b s).phase = s.phase := by
  rcases payloadByte_cases b s with ⟨-, e⟩ | ⟨-, e⟩ <;> simp [e]

@[simp] theorem readStat_phase (s : State) : (readStat s).phase = s.phase := by
  unfold readStat; split <;> simp

@[simp] theorem readResponseByte_phase (v : Byte) (reliable : Bool) (s : State) :
    (readResponseByte v reliable s).phase = s.phase := by
  unfold readResponseByte; split <;> simp

@[simp] theorem collectReturn_phase (k : ReturnKind) (s : State) :
    (collectReturn k s).phase = s.phase := by
  unfold collectReturn
  split
  · split <;> simp
  · simp

theorem readHreg_phase {n : Nat} (h : readHreg n s = .next t) : t.phase = s.phase := by
  unfold readHreg at h
  split at h <;> cases h <;> simp

theorem writeHreg_phase {n : Nat} {v : HostWord} (h : writeHreg n v s = .next t) :
    t.phase = s.phase := by
  unfold writeHreg at h
  split at h <;> cases h <;> rfl

theorem hostWriteTxbuf_phase {i : Nat} {b : Byte} (h : hostWriteTxbuf i b s = .next t) :
    t.phase = s.phase := by
  obtain ⟨-, h⟩ := ite_eq_next h nofun
  cases h; rfl

theorem hostReadTxbuf_phase {i : Nat} (h : hostReadTxbuf i s = .next t) : t.phase = s.phase := by
  obtain ⟨-, h⟩ := ite_eq_next h nofun
  cases h; simp

theorem hostReadRxbuf_phase {i : Nat} (h : hostReadRxbuf i s = .next t) : t.phase = s.phase := by
  obtain ⟨-, h⟩ := ite_eq_next h nofun
  split at h <;> cases h <;> simp

/-! ### Starts -/

theorem sendCommand_phaseMove {ty : Byte} {p : List Byte} (hp : s.phase = .idle)
    (h : sendCommand ty p s = .next t) : PhaseMove s t := by
  obtain ⟨-, rfl⟩ := sendCommand_eq_next.1 h
  exact .starts hp rfl rfl rfl

theorem sendVerbatim_phaseMove {bytes : List Byte} (hp : s.phase = .idle)
    (h : sendVerbatim bytes s = .next t) : PhaseMove s t := by
  obtain ⟨-, rfl⟩ := sendVerbatim_eq_next.1 h
  exact .starts hp rfl rfl rfl

/-- An act that waits leaves `phase` as it is; one that runs does so from IDLE. -/
theorem whenIdle_phaseMove {item : HostItem} {act : State → Result}
    (h : whenIdle item act s = .next t)
    (ha : s.phase = .idle → act s = .next t → PhaseMove s t) : PhaseMove s t := by
  rcases whenIdle_eq_next.1 h with ⟨hp, hr⟩ | ⟨-, rfl⟩
  · exact ha hp hr
  · exact .stays rfl

theorem sendByCmd_phaseMove {ty : Byte} {p : List Byte} (h : sendByCmd ty p s = .next t) :
    PhaseMove s t :=
  whenIdle_phaseMove h sendCommand_phaseMove

theorem sendByRaw_phaseMove {bytes : List Byte} (h : sendByRaw bytes s = .next t) :
    PhaseMove s t :=
  whenIdle_phaseMove h sendVerbatim_phaseMove

theorem frameCrosses_phaseMove {via : Via} {ty len : Byte} {rest : List Byte}
    (h : frameCrosses via ty len rest s = .next t) : PhaseMove s t := by
  cases via with
  | cmd => exact sendByCmd_phaseMove h
  | raw => exact sendByRaw_phaseMove h
  | rx => exact .of_next h (.stays rfl)

theorem commandThenCollect_phaseMove {item : HostItem} {k : ReturnKind} {ty : Byte} {p : List Byte}
    (h : whenIdle item (commandThenCollect k ty p) s = .next t) : PhaseMove s t :=
  whenIdle_phaseMove h fun hp hc =>
    .of_agents (sendCommand_phaseMove (s := post (.collect k) s) hp hc)

/-! ### The engine's own steps -/

/-- A byte-taking step whose act leaves `phase` alone stays in RX. -/
theorem rxStep_phaseMove {st : RxState} {act : Byte → State → State}
    (h : rxStep st act s = .next t) (ha : ∀ b u, (act b u).phase = u.phase) : PhaseMove s t := by
  obtain ⟨-, -, b, r, -, rfl⟩ := rxStep_eq_next.1 h
  exact .stays (ha b _)

theorem execTxCmdPayload_phaseMove (h : execTxCmdPayload s = .next t) : PhaseMove s t := by
  obtain ⟨-, h⟩ := ite_eq_next h nofun
  exact .of_next h (.stays (by simp))

theorem execTxCmdCrc_phaseMove (h : execTxCmdCrc s = .next t) : PhaseMove s t := by
  obtain ⟨⟨hp, ho, hpos⟩, h⟩ := ite_eq_next h nofun
  exact .of_next h (.sentLast hp rfl ⟨s.chkAcc, rfl⟩ (.inl ⟨ho, hpos⟩))

/-- A RAW byte leaves TX exactly with the last one. -/
theorem txRawByteOp_phaseMove (b : Byte) (hp : s.phase = .tx) (ho : s.op = .raw) :
    PhaseMove s (txRawByteOp b s) := by
  rcases txRawByteOp_cases b s with ⟨hl, e⟩ | ⟨-, e⟩ <;> rw [e]
  · exact .sentLast hp rfl ⟨b, rfl⟩ (.inr ⟨ho, hl⟩)
  · exact .stays rfl

theorem execTxRawByte_phaseMove (h : execTxRawByte s = .next t) : PhaseMove s t := by
  obtain ⟨⟨hp, ho⟩, h⟩ := ite_eq_next h nofun
  refine .of_next h ?_
  rcases readCell_state s.txbuf s.txPos.toNat s with e | e <;> rw [e]
  · exact txRawByteOp_phaseMove _ hp ho
  · exact .of_agents (txRawByteOp_phaseMove (s := s.draw 1) _ hp ho)

/-! ### Every instruction, every act of the host, every step -/

theorem exec_phaseMove {i : Instr} (h : exec i s = .next t) : PhaseMove s t := by
  cases i with
  | nop => exact whenIdle_phaseMove h fun _ hn => .of_next hn (.stays rfl)
  | cmd =>
    refine whenIdle_phaseMove h fun hp hc => ?_
    obtain ⟨-, rfl⟩ := startCmd_eq_next.1 hc
    exact .starts hp rfl rfl rfl
  | raw =>
    refine whenIdle_phaseMove h fun hp hr => ?_
    obtain ⟨-, rfl⟩ := startRaw_eq_next.1 hr
    exact .starts hp rfl rfl rfl
  | opselReserved => cases h
  | frMac | frVersion | frSetTxMode | frTxPower | frRadioParam | frOpMode | frAppData | frChSpaceSet
  | frChSpaceQry | frError | frAny => exact frameCrosses_phaseMove h
  | checksum8 | chkLoad | chkAdd | decode | correlate => exact .of_next h (.stays rfl)
  | encodeCommand ty payload =>
    obtain ⟨-, h⟩ := ite_eq_next h nofun
    exact .of_next h (.stays rfl)
  | txCmdPreamble0 | txCmdPreamble1 | txCmdType =>
    obtain ⟨-, h⟩ := ite_eq_next h nofun
    exact .of_next h (.stays rfl)
  | txCmdLen =>
    obtain ⟨-, h⟩ := ite_eq_next h nofun
    obtain ⟨-, h⟩ := ite_eq_next h nofun
    exact .of_next h (.stays rfl)
  | txCmdPayload => exact execTxCmdPayload_phaseMove h
  | txCmdCrc => exact execTxCmdCrc_phaseMove h
  | txRawByte => exact execTxRawByte_phaseMove h
  | rxSync => exact rxStep_phaseMove h syncByte_phase
  | rxSecondPreamble => exact rxStep_phaseMove h secondPreambleByte_phase
  | rxLength => exact rxStep_phaseMove h lengthByte_phase
  | rxPayload => exact rxStep_phaseMove h payloadByte_phase
  | rxCrc => exact rxStep_phaseMove h fun b u => crcByte_phase u b
  | rxValidate =>
    obtain ⟨-, h⟩ := ite_eq_next h nofun
    exact .of_next h (.stays rfl)
  | complete =>
    obtain ⟨⟨hp, hs⟩, h⟩ := ite_eq_next h nofun
    exact .of_next h (.completes hp hs rfl rfl)
  | getProtocolVersion | setOperatingMode | setTxPower | setChannelSpacing | setFrequency
  | setTxMode => exact commandThenCollect_phaseMove h
  | transmitApplicationData bytes =>
    simp only [exec, execTransmitApplicationData] at h
    split at h
    · exact .of_next h (.stays rfl)
    · exact whenIdle_phaseMove h sendCommand_phaseMove

theorem runItem_phaseMove {item : HostItem} (h : runItem item s = .next t) : PhaseMove s t := by
  rcases runItem_next_cases h with ⟨_, -, h⟩ | ⟨_, _, -, h⟩ | ⟨_, -, h⟩ | ⟨_, -, rfl⟩ |
    ⟨_, _, -, h⟩ | ⟨_, -, h⟩ | ⟨_, _, -, h⟩ | ⟨_, -, h⟩ | ⟨_, -, h⟩ | ⟨_, -, rfl⟩
  · exact exec_phaseMove h
  · exact sendByCmd_phaseMove h
  · exact sendByRaw_phaseMove h
  · exact .stays rfl
  · exact .stays (writeHreg_phase h)
  · exact .stays (readHreg_phase h)
  · exact .stays (hostWriteTxbuf_phase h)
  · exact .stays (hostReadTxbuf_phase h)
  · exact .stays (hostReadRxbuf_phase h)
  · exact .stays (by simp)

theorem engineMove_phaseMove (h : engineMove s = .next t) : PhaseMove s t := by
  rcases engineMove_next_cases h with ⟨_, -, h⟩ | ⟨-, -, rfl⟩
  · exact exec_phaseMove h
  · exact .stays rfl

theorem hostMove_phaseMove (h : hostMove s = .next t) : PhaseMove s t := by
  rcases hostMove_next_cases h with rfl | ⟨_, _, -, -, h⟩
  · exact .stays rfl
  · exact .of_agents (runItem_phaseMove h)

/-- A step makes a move of `PhaseMove` or is a reset. -/
theorem step_phaseMove (h : step s = .next t) :
    PhaseMove s t ∨ ∃ r, s.sched = .reset :: r ∧ t.phase = .idle := by
  rcases step_next_cases h with ⟨b, r, -, rfl⟩ | ⟨r, hr, rfl⟩ | ⟨u, hu, hm⟩
  · exact .inl (.stays rfl)
  · exact .inr ⟨r, hr, rfl⟩
  · have hut : PhaseMove u t := hm.elim engineMove_phaseMove hostMove_phaseMove
    rcases hu with ⟨-, rfl⟩ | ⟨_, _, -, rfl⟩
    · exact .inl hut
    · exact .inl hut.of_agents

end PhaseMoves

/-- Settles O47: without reset every step makes one of the moves of `PhaseMove`, because each STEP row
tests `phase` itself and a start goes ahead only from IDLE. -/
theorem phaseTransitionsAreTheFour : Obligations.PhaseTransitionsAreTheFour := by
  intro s t h
  rcases step_phaseMove h with hm | hr
  · cases hm with
    | stays hp => exact .inl hp
    | starts hi ht hp hv => exact .inr (.inl ⟨hi, ht, hp, hv⟩)
    | sentLast hs ht hb hl => exact .inr (.inr (.inl ⟨hs, ht, hb, hl⟩))
    | completes hp hs ht hv => exact .inr (.inr (.inr (.inl ⟨hp, hs, ht, hv⟩)))
  · exact .inr (.inr (.inr (.inr hr)))

end Sys2Proof.Machine

/-! PROOF. The host waits while the engine is busy (20_memory.md R71): a step with its turn known is that
agent's move, a host act that must wait changes nothing, and no step of the engine touches what is the
host's (10_state.md R40). -/

namespace Sys2Proof.Machine

section HostWaits

variable {s t : State}

/-! ### A step whose turn is known -/

theorem step_hostTurn {r : List Turn} (hr : s.sched = .host :: r) :
    step s = hostMove { s with sched := r } := by
  simp only [step, move, hr]

theorem step_unlisted_idle (hs : s.sched = []) (hp : s.phase = .idle) : step s = hostMove s := by
  simp only [step, move, hs, if_pos hp]

theorem step_unlisted_busy (hs : s.sched = []) (hp : s.phase ≠ .idle) : step s = engineMove s := by
  simp only [step, move, hs, if_neg hp]

/-! ### The host's first act runs or waits -/

theorem hostMove_runs {item : HostItem} {q : List HostItem} (hq : s.hostq = item :: q)
    (h : s.phase = .idle ∨ item.mayProceedBusy = true) :
    hostMove s = runItem item { s with hostq := q } := by
  simp only [hostMove, hq, if_pos h]

theorem hostMove_waits {item : HostItem} {q : List HostItem} (hq : s.hostq = item :: q)
    (hp : s.phase ≠ .idle) (hi : item.mayProceedBusy = false) : hostMove s = .next s := by
  simp only [hostMove, hq, hp, hi, Bool.false_eq_true, or_self, if_false]

theorem mayProceedBusy_eq_false {item : HostItem} (hstat : item ≠ .read 1)
    (hrx : ∀ bytes, item ≠ .received bytes) : item.mayProceedBusy = false := by
  cases item with
  | read n => exact beq_false_of_ne fun h => hstat (congrArg HostItem.read h)
  | received bytes => exact absurd rfl (hrx bytes)
  | write | txbufWrite | txbufRead | rxbufWrite | rxbufRead | command | verbatim | call
  | collect => rfl

@[simp] theorem readStat_hostq (s : State) : (readStat s).hostq = s.hostq := by
  unfold readStat; split <;> rfl

@[simp] theorem readStat_sched (s : State) : (readStat s).sched = s.sched := by
  unfold readStat; split <;> rfl

/-! ### What the engine never writes -/

/-- The part of the state that is not the engine's to write: the operand registers and TXBUF
(10_state.md R40), the lists of the agents outside it, the values handed to the host. -/
structure HostSide where
  txtype : Byte
  plen : Byte
  rawlen : BitVec 9
  txbuf : Memory
  hostq : List HostItem
  sched : List Turn
  returned : List Returned

def State.hostSide (s : State) : HostSide :=
  ⟨s.txtype, s.plen, s.rawlen, s.txbuf, s.hostq, s.sched, s.returned⟩

theorem hostSide_of_next {u : State} (h : (.next u : Result) = .next t)
    (hu : u.hostSide = s.hostSide) : t.hostSide = s.hostSide := by
  cases h; exact hu

@[simp] theorem readCell_hostSide (m : Memory) (i : Nat) (s : State) :
    (readCell m i s).2.hostSide = s.hostSide := by
  rcases readCell_state m i s with e | e
  · rw [e]
  · rw [e]; rfl

@[simp] theorem txCmdByte_hostSide (b : Byte) (s : State) :
    (txCmdByte b s).hostSide = s.hostSide := rfl

@[simp] theorem txRawByteOp_hostSide (b : Byte) (s : State) :
    (txRawByteOp b s).hostSide = s.hostSide := by
  rcases txRawByteOp_cases b s with ⟨-, e⟩ | ⟨-, e⟩ <;> rw [e] <;> rfl

theorem syncByte_hostSide (b : Byte) (s : State) : (syncByte b s).hostSide = s.hostSide := by
  rcases syncByte_cases b s with ⟨-, e⟩ | ⟨-, -, e⟩ | ⟨-, -, e⟩ <;> rw [e] <;> rfl

theorem secondPreambleByte_hostSide (b : Byte) (s : State) :
    (secondPreambleByte b s).hostSide = s.hostSide := by
  rcases secondPreambleByte_cases b s with ⟨-, e⟩ | ⟨-, e⟩ <;> rw [e] <;> rfl

theorem lengthByte_hostSide (b : Byte) (s : State) : (lengthByte b s).hostSide = s.hostSide := by
  rcases lengthByte_cases b s with ⟨-, e⟩ | ⟨-, e⟩ <;> rw [e] <;> rfl

theorem storeSpanByte_hostSide (b : Byte) (s : State) :
    (storeSpanByte b s).hostSide = s.hostSide := by
  rcases storeSpanByte_cases b s with ⟨-, e⟩ | ⟨-, e⟩ <;> rw [e] <;> rfl

theorem payloadByte_hostSide (b : Byte) (s : State) : (payloadByte b s).hostSide = s.hostSide := by
  rcases payloadByte_cases b s with ⟨-, e⟩ | ⟨-, e⟩ <;> rw [e] <;>
    exact storeSpanByte_hostSide b (chkAddOp b s)

theorem rxStep_hostSide {st : RxState} {act : Byte → State → State}
    (h : rxStep st act s = .next t) (ha : ∀ b u, (act b u).hostSide = u.hostSide) :
    t.hostSide = s.hostSide := by
  obtain ⟨-, -, b, r, -, rfl⟩ := rxStep_eq_next.1 h
  exact ha b _

/-- An instruction that is no host's to ask for leaves the host's side alone. -/
theorem exec_hostSide {i : Instr} (hi : i.hostCallable = false) (h : exec i s = .next t) :
    t.hostSide = s.hostSide := by
  cases i with
  | chkLoad | chkAdd => exact hostSide_of_next h rfl
  | txCmdPreamble0 | txCmdPreamble1 | txCmdType | txCmdCrc | rxValidate | complete =>
    obtain ⟨-, h⟩ := ite_eq_next h nofun
    exact hostSide_of_next h rfl
  | txCmdLen =>
    obtain ⟨-, h⟩ := ite_eq_next h nofun
    obtain ⟨-, h⟩ := ite_eq_next h nofun
    exact hostSide_of_next h rfl
  | txCmdPayload | txRawByte =>
    obtain ⟨-, h⟩ := ite_eq_next h nofun
    exact hostSide_of_next h (by simp)
  | rxSync => exact rxStep_hostSide h syncByte_hostSide
  | rxSecondPreamble => exact rxStep_hostSide h secondPreambleByte_hostSide
  | rxLength => exact rxStep_hostSide h lengthByte_hostSide
  | rxPayload => exact rxStep_hostSide h payloadByte_hostSide
  | rxCrc => exact rxStep_hostSide h fun _ _ => rfl
  | _ => cases hi

theorem txCmdInstr_not_hostCallable {plen pos : Nat} {i : Instr}
    (h : txCmdInstr plen pos = some i) : i.hostCallable = false := by
  unfold txCmdInstr at h
  split_ifs at h <;> cases h <;> rfl

theorem rxInstr_not_hostCallable (st : RxState) : (rxInstr st).hostCallable = false := by
  cases st <;> rfl

theorem engineInstr_not_hostCallable {i : Instr} (h : engineInstr s = some i) :
    i.hostCallable = false := by
  unfold engineInstr at h
  split at h
  · cases h
  · exact txCmdInstr_not_hostCallable h
  · cases h; rfl
  · cases h; exact rxInstr_not_hostCallable s.rxState

theorem engineMove_hostSide (h : engineMove s = .next t) : t.hostSide = s.hostSide := by
  rcases engineMove_next_cases h with ⟨i, hi, h⟩ | ⟨-, -, rfl⟩
  · exact exec_hostSide (engineInstr_not_hostCallable hi) h
  · rfl

end HostWaits

/-- Settles O42: a busy engine lets no act through but those of `mayProceedBusy`, and its own move leaves
the list of the host's acts alone (`engineMove_hostSide`). -/
theorem hostWaitsWhileBusy : Obligations.HostWaitsWhileBusy := by
  refine ⟨fun s item q hq hstat hrx => ⟨?waits, ?engine, ?proceeds⟩, ?stat⟩
  case waits =>
    intro hp r hr
    rw [step_hostTurn hr]
    exact hostMove_waits hq hp (mayProceedBusy_eq_false hstat hrx)
  case engine =>
    intro hp hs t h
    rw [step_unlisted_busy hs hp] at h
    exact ⟨congrArg HostSide.hostq (engineMove_hostSide h), h⟩
  case proceeds =>
    intro hp hs
    rw [step_unlisted_idle hs hp]
    exact hostMove_runs hq (.inl hp)
  case stat =>
    intro s q r hq hr
    refine ⟨readStat { s with hostq := q, sched := r }, ?_, by simp, by simp, by simp⟩
    rw [step_hostTurn hr]
    exact hostMove_runs (s := { s with sched := r }) hq (.inr rfl)

end Sys2Proof.Machine

/-! PROOF. The starts refused outside their domain (30_encoding.md R100): on an idle engine a row asked
for through `whenIdle` is its act, and a start step refuses the operands that R131 and R181 shut out. -/

namespace Sys2Proof.Machine

section RefusedStarts

variable {s : State}

theorem whenIdle_of_idle (item : HostItem) (act : State → Result) (hp : s.phase = .idle) :
    whenIdle item act s = act s := if_pos hp

theorem exec_cmd_of_idle (hp : s.phase = .idle) : exec .cmd s = startCmd s :=
  whenIdle_of_idle (.write 0 1) startCmd hp

theorem exec_raw_of_idle (hp : s.phase = .idle) : exec .raw s = startRaw s :=
  whenIdle_of_idle (.write 0 2) startRaw hp

theorem exec_opselReserved (s : State) : exec .opselReserved s = .refused .opselReserved := rfl

theorem startCmd_refused (h : Config.maxPlen < s.plen.toNat) :
    startCmd s = .refused .plenOutOfRange := if_neg (Nat.not_le.2 h)

theorem startRaw_refused
    (h : s.rawlen.toNat < Config.minRawlen ∨ Config.txbufSize < s.rawlen.toNat) :
    startRaw s = .refused .rawlenOutOfRange := if_neg (by omega)

end RefusedStarts

/-- Settles O14: the reserved code has no path but its refusal; on an idle engine a start is its start
step (`exec_cmd_of_idle`, `exec_raw_of_idle`), whose guard fails outside the domain. -/
theorem startsOutsideTheirDomainAreRefused : Obligations.StartsOutsideTheirDomainAreRefused := by
  intro s
  refine ⟨exec_opselReserved s, ?cmd, ?raw⟩
  case cmd =>
    intro hp hl
    rw [exec_cmd_of_idle hp]
    exact startCmd_refused hl
  case raw =>
    intro hp hl
    rw [exec_raw_of_idle hp]
    exact startRaw_refused hl

end Sys2Proof.Machine

/-! PROOF. The checksum as an integer sum (40_checksum.md R120), added up byte by byte (R123), and what
changes it sees (R124), in a sequence and in the frame that DEC takes. -/

namespace Sys2Proof.Machine

section ChecksumSums

/-! ### The integer sum -/

/-- 40_checksum.md R120: the wraparound of each addition is the reduction of the whole sum modulo 256. -/
theorem checksum8_toNat (bytes : List Byte) :
    (checksum8 bytes).toNat = (bytes.map BitVec.toNat).sum % 256 := by
  induction bytes with
  | nil => rfl
  | cons b r ih =>
    rw [checksum8_cons, BitVec.toNat_add, ih, List.map_cons, List.sum_cons]
    exact Nat.add_mod_mod ..

theorem checksum8_eq_iff {a b : List Byte} :
    checksum8 a = checksum8 b ↔
      (a.map BitVec.toNat).sum % 256 = (b.map BitVec.toNat).sum % 256 := by
  rw [← BitVec.toNat_inj, checksum8_toNat, checksum8_toNat]

theorem checksum8_perm {a b : List Byte} (h : a.Perm b) : checksum8 a = checksum8 b :=
  checksum8_eq_iff.2 (congrArg (· % 256) (h.map BitVec.toNat).sum_eq)

/-! ### Concatenation and CHK.ADD -/

theorem checksum8_append (a b : List Byte) :
    checksum8 (a ++ b) = checksum8 a + checksum8 b := by
  induction a with
  | nil => simp
  | cons c r ih => simp [ih, BitVec.add_assoc]

/-- CHK.ADD of the bytes of `b` adds the checksum of `b` to the accumulator, whatever it holds. -/
theorem addsAll_eq (b : List Byte) (s : State) :
    addsAll b s = .next { s with chkAcc := s.chkAcc + checksum8 b } := by
  induction b generalizing s with
  | nil => simp [addsAll]
  | cons c r ih =>
    have hadd : addsAll (c :: r) s = addsAll r (chkAddOp c s) := rfl
    rw [hadd, ih, checksum8_cons, ← BitVec.add_assoc]
    rfl

/-! ### A change of one byte -/

/-- Writing `new` over `old` moves the checksum by their difference. -/
theorem checksum8_set {a : List Byte} {i : Nat} {old : Byte} (new : Byte) (h : a[i]? = some old) :
    checksum8 (a.set i new) + old = checksum8 a + new := by
  induction a generalizing i with
  | nil => cases h
  | cons c r ih =>
    cases i with
    | zero =>
      obtain rfl : c = old := by simpa using h
      simp only [List.set_cons_zero, checksum8_cons]
      ac_rfl
    | succ j =>
      have hr := ih (i := j) (by simpa using h)
      simp only [List.set_cons_succ, checksum8_cons, BitVec.add_assoc, hr]

theorem checksum8_set_ne {a : List Byte} {i : Nat} {old new : Byte} (h : a[i]? = some old)
    (hne : old ≠ new) : checksum8 (a.set i new) ≠ checksum8 a := by
  intro heq
  have hmove := checksum8_set new h
  rw [heq] at hmove
  exact hne ((BitVec.add_right_inj _).1 hmove)

/-! ### The frame that DEC takes -/

/-- 42_decode.md R154 to R156 on a span of the length that LEN announces: the CRC byte is tested against
the checksum of header and payload. -/
theorem decodeSpan_frame {p : List Byte} (hp : p.length ≤ 253) (k : Nat) (ty crc : Byte)
    (more : List Byte) :
    decodeSpan (lenByte p.length) k (ty :: (p ++ crc :: more)) =
      if checksum8 (frameHeader (lenByte p.length) ty ++ p) = crc then
        .done .ok (k + (p.length + 2)) (some ⟨lenByte p.length, ty, p, crc⟩)
      else .done .checksumErr (k + (p.length + 2)) none := by
  have hlen : ¬ (ty :: (p ++ crc :: more)).length < p.length + 2 := by
    simp only [List.length_cons, List.length_append]; omega
  have hspan : (ty :: (p ++ crc :: more)).take (p.length + 1) = ty :: p := by simp
  have hcrc : (ty :: (p ++ crc :: more)).drop (p.length + 1) = crc :: more := by simp
  simp only [decodeSpan, toNat_lenByte hp, if_neg hlen, Nat.add_succ_sub_one, hspan, hcrc]
  rfl

/-- 42_decode.md R151 to R153: a stream that opens with the two preamble bytes and a LEN of at least 2 is
decoded as its span. -/
theorem decodeStream_header {len : Byte} (hlen : 2 ≤ len.toNat) (ty : Byte) (r : List Byte) :
    decodeStream (frameHeader len ty ++ r) = decodeSpan len 3 (ty :: r) := by
  have hmin : ¬ len.toNat < Config.minLen := Nat.not_lt.2 hlen
  simp [frameHeader, decodeStream, decodeSync, decodeSecond, decodeLength, hmin]

/-- A whole frame with any CRC byte, whatever follows it: its checksum alone decides. -/
theorem decodeStream_frame {p : List Byte} (hp : p.length ≤ 253) (ty crc : Byte)
    (more : List Byte) :
    decodeStream (frameHeader (lenByte p.length) ty ++ (p ++ crc :: more)) =
      if checksum8 (frameHeader (lenByte p.length) ty ++ p) = crc then
        .done .ok (p.length + 5) (some ⟨lenByte p.length, ty, p, crc⟩)
      else .done .checksumErr (p.length + 5) none := by
  have hlen : 2 ≤ (lenByte p.length).toNat := by rw [toNat_lenByte hp]; omega
  have hk : 3 + (p.length + 2) = p.length + 5 := by omega
  rw [decodeStream_header hlen, decodeSpan_frame hp, hk]

end ChecksumSums

/-- Settles O8, by `checksum8_toNat` (induction on the bytes). -/
theorem checksumIsTheSumModulo256 : Obligations.ChecksumIsTheSumModulo256 :=
  ⟨checksum8_toNat, checksum8_nil⟩

/-- Settles O10: `addsAll_eq` adds the checksum of `b`, and the checksum of a concatenation is the sum of
the two (`checksum8_append`). -/
theorem checksumAccumulatesByteByByte : Obligations.ChecksumAccumulatesByteByByte := by
  intro a b s hacc
  have happend := checksum8_append a b
  refine ⟨?_, happend⟩
  rw [addsAll_eq, hacc, happend]

/-- Settles O11: the first two facts speak of the integer sum only (`checksum8_eq_iff`), the third cancels
in `checksum8_set`, and the fourth is the failed test of `decodeStream_frame`. -/
theorem checksumIgnoresOrderAndSeesOneChange : Obligations.ChecksumIgnoresOrderAndSeesOneChange := by
  refine ⟨fun _ _ => checksum8_perm, fun _ _ => checksum8_eq_iff.2,
    fun _ _ _ _ => checksum8_set_ne, ?crcByte⟩
  case crcByte =>
    intro ty p crc hp hcrc
    exact ⟨p.length + 5, (decodeStream_frame hp ty crc []).trans (if_neg hcrc.symm)⟩

end Sys2Proof.Machine

/-! PROOF. ENC and the transmit phase (41_encode.md): the frame `encodeCommand` builds (R130), and a TX
phase that cannot fail (R142) and sends exactly the frame, or exactly the verbatim bytes (R143). Every
transmit step but the last is one `transmitByte`, of CMD and RAW alike. -/

namespace Sys2Proof.Machine

/-! ### The frame -/

theorem encodeFrame_eq (ty : Byte) (p : List Byte) :
    encodeFrame ty p = frameHeader (lenByte p.length) ty ++ p ++
      [checksum8 (frameHeader (lenByte p.length) ty ++ p)] := rfl

@[simp] theorem length_frameHeader (len ty : Byte) : (frameHeader len ty).length = 4 := rfl

theorem length_encodeFrame (ty : Byte) (p : List Byte) :
    (encodeFrame ty p).length = p.length + 5 := by
  simp only [encodeFrame_eq, List.length_append, length_frameHeader, List.length_singleton]
  omega

/-- Type and payload stand in the frame unchanged, before the one byte of the CRC. -/
theorem encodeFrame_inj {ty ty' : Byte} {p p' : List Byte}
    (h : encodeFrame ty p = encodeFrame ty' p') : ty = ty' ∧ p = p' := by
  simp only [encodeFrame_eq, List.append_assoc] at h
  obtain ⟨hheader, hrest⟩ := List.append_inj h rfl
  obtain ⟨hp, -⟩ := List.append_inj' hrest rfl
  simp only [frameHeader, List.cons.injEq] at hheader
  obtain ⟨-, -, -, hty, -⟩ := hheader
  exact ⟨hty, hp⟩

/-- Settles O12: LEN does not wrap within R131's domain (`toNat_lenByte`), and `encodeFrame_inj` reads type
and payload back from the frame. -/
theorem encodeCommandBuildsTheFrame : Obligations.EncodeCommandBuildsTheFrame :=
  ⟨fun ty p hp => ⟨lenByte p.length, _, toNat_lenByte hp, rfl, encodeFrame_eq ty p,
    length_encodeFrame ty p⟩, fun _ _ _ _ => encodeFrame_inj⟩

section TransmitSteps

variable {s : State}

/-! ### The steps at their positions -/

/-- What a transmit step that is not the last one does with its byte: sent, added by a CMD (41_encode.md
R133 to R137), captured at offset 3 (R141), next position. -/
def transmitByte (b : Byte) (s : State) : State :=
  { s with
    txHist := s.txHist ++ [b]
    chkAcc := if s.op = .cmd then s.chkAcc + b else s.chkAcc
    reqType := if s.txPos.toNat = 3 then b else s.reqType
    txPos := s.txPos + 1 }

theorem txCmdByte_eq_transmitByte (b : Byte) (ho : s.op = .cmd) (hpos : s.txPos.toNat ≠ 3) :
    txCmdByte b s = transmitByte b s := by
  simp only [transmitByte, if_pos ho, if_neg hpos]; rfl

/-- The TYPE step's own capture is the one at offset 3. -/
theorem txCmdType_eq_transmitByte (b : Byte) (ho : s.op = .cmd) (hpos : s.txPos.toNat = 3) :
    { txCmdByte b s with reqType := b } = transmitByte b s := by
  simp only [transmitByte, if_pos ho, if_pos hpos]; rfl

theorem txRawByteOp_eq_transmitByte (b : Byte) (ho : s.op = .raw)
    (hlast : s.txPos.toNat + 1 ≠ s.rawlen.toNat) : txRawByteOp b s = transmitByte b s := by
  have hc : s.op ≠ .cmd := by simp [ho]
  simp only [transmitByte, txRawByteOp, if_neg hlast, if_neg hc]; rfl

theorem txRawByteOp_last (b : Byte) (hlast : s.txPos.toNat + 1 = s.rawlen.toNat) :
    txRawByteOp b s = decoderEntry { txWrite b s with
      reqType := if s.txPos.toNat = 3 then b else s.reqType } := if_pos hlast

@[simp] theorem readCell_op (m : Memory) (i : Nat) (s : State) : (readCell m i s).2.op = s.op := by
  rcases readCell_state m i s with e | e <;> simp [e]

@[simp] theorem readCell_txPos (m : Memory) (i : Nat) (s : State) :
    (readCell m i s).2.txPos = s.txPos := by
  rcases readCell_state m i s with e | e <;> simp [e]

/-- The byte a CMD sends at a position before the CRC, and the state after its read (41_encode.md R132). -/
def State.cmdByteAt (s : State) : Nat → Byte × State
  | 0 => (Config.preamble0, s)
  | 1 => (Config.preamble1, s)
  | 2 => (lenByte s.plen.toNat, s)
  | 3 => (s.txtype, s)
  | i + 4 => readCell s.txbuf i s

theorem cmdByteAt_state (s : State) (pos : Nat) :
    (s.cmdByteAt pos).2 = s ∨ (s.cmdByteAt pos).2 = s.draw 1 := by
  match pos with
  | 0 | 1 | 2 | 3 => exact .inl rfl
  | i + 4 => exact readCell_state s.txbuf i s

theorem txCmdInstr_payload {plen i : Nat} (h : i < plen) :
    txCmdInstr plen (i + 4) = some .txCmdPayload := by
  simp [txCmdInstr, show i + 4 ≤ plen + 3 by omega]

theorem txCmdInstr_crc (plen : Nat) : txCmdInstr plen (plen + 4) = some .txCmdCrc := by
  simp [txCmdInstr]

theorem engineMove_txCmd {i : Instr} (hp : s.phase = .tx) (ho : s.op = .cmd)
    (hi : txCmdInstr s.plen.toNat s.txPos.toNat = some i) : engineMove s = exec i s := by
  simp only [engineMove, engineInstr, hp, ho, hi]

theorem engineMove_txRaw (hp : s.phase = .tx) (ho : s.op = .raw) :
    engineMove s = exec .txRawByte s := by
  simp only [engineMove, engineInstr, hp, ho]

/-- The row of R132's table at each position before the CRC is a `transmitByte`. -/
theorem exec_txCmdInstr (hp : s.phase = .tx) (ho : s.op = .cmd) (hl : s.plen.toNat ≤ 253) {pos : Nat}
    (h : s.txPos.toNat = pos) (hpos : pos < s.plen.toNat + 4) :
    ∃ i, txCmdInstr s.plen.toNat pos = some i ∧
      exec i s = .next (transmitByte (s.cmdByteAt pos).1 (s.cmdByteAt pos).2) := by
  match pos with
  | 0 | 1 =>
    rw [State.cmdByteAt, ← txCmdByte_eq_transmitByte _ ho (by omega)]
    exact ⟨_, rfl, if_pos ⟨hp, ho, h⟩⟩
  | 2 =>
    rw [State.cmdByteAt, ← txCmdByte_eq_transmitByte _ ho (by omega)]
    exact ⟨_, rfl, (if_pos ⟨hp, ho, h⟩).trans (if_pos hl)⟩
  | 3 =>
    rw [State.cmdByteAt, ← txCmdType_eq_transmitByte _ ho h]
    exact ⟨_, rfl, if_pos ⟨hp, ho, h⟩⟩
  | i + 4 =>
    have hcell : s.txPos.toNat - 4 = i := by omega
    have hexec : exec .txCmdPayload s = .next (txCmdByte (readCell s.txbuf (s.txPos.toNat - 4) s).1
        (readCell s.txbuf (s.txPos.toNat - 4) s).2) := if_pos ⟨hp, ho, by omega, by omega⟩
    rw [hcell, txCmdByte_eq_transmitByte _ (by simp [ho]) (by simp; omega)] at hexec
    exact ⟨_, txCmdInstr_payload (by omega), hexec⟩

theorem step_tx (hs : s.sched = []) (hp : s.phase = .tx) : step s = engineMove s :=
  step_unlisted_busy hs (by simp [hp])

theorem step_txCmd (hs : s.sched = []) (hp : s.phase = .tx) (ho : s.op = .cmd)
    (hl : s.plen.toNat ≤ 253) (hpos : s.txPos.toNat < s.plen.toNat + 4) :
    step s = .next
      (transmitByte (s.cmdByteAt s.txPos.toNat).1 (s.cmdByteAt s.txPos.toNat).2) := by
  obtain ⟨i, hi, hexec⟩ := exec_txCmdInstr hp ho hl rfl hpos
  rw [step_tx hs hp, engineMove_txCmd hp ho hi, hexec]

theorem step_txCmd_last (hs : s.sched = []) (hp : s.phase = .tx) (ho : s.op = .cmd)
    (hpos : s.txPos.toNat = s.plen.toNat + 4) :
    step s = .next (decoderEntry (txWrite s.chkAcc s)) := by
  have hi := txCmdInstr_crc s.plen.toNat
  rw [← hpos] at hi
  rw [step_tx hs hp, engineMove_txCmd hp ho hi]
  exact if_pos ⟨hp, ho, hpos⟩

theorem step_txRaw (hs : s.sched = []) (hp : s.phase = .tx) (ho : s.op = .raw) :
    step s = .next (txRawByteOp (readCell s.txbuf s.txPos.toNat s).1
      (readCell s.txbuf s.txPos.toNat s).2) := by
  rw [step_tx hs hp, engineMove_txRaw hp ho]
  exact if_pos ⟨hp, ho⟩

/-! ### What a step leaves unchanged -/

/-- One byte goes out, and what reports to the host or serves DEC stays (41_encode.md R142). -/
def SendsOnly (b : Byte) (s t : State) : Prop :=
  t.txHist = s.txHist ++ [b] ∧ t.status = s.status ∧ t.respValid = s.respValid ∧
    t.rlen = s.rlen ∧ t.rtype = s.rtype ∧ t.rcrc = s.rcrc ∧ t.rxbuf = s.rxbuf ∧
    t.rxStream = s.rxStream

theorem sendsOnly_transmitByte (b : Byte) (s : State) : SendsOnly b s (transmitByte b s) :=
  ⟨rfl, rfl, rfl, rfl, rfl, rfl, rfl, rfl⟩

theorem sendsOnly_decoderEntry (b : Byte) (s : State) :
    SendsOnly b s (decoderEntry (txWrite b s)) :=
  ⟨rfl, rfl, rfl, rfl, rfl, rfl, rfl, rfl⟩

theorem sendsOnly_txRawByteOp (b : Byte) (s : State) : SendsOnly b s (txRawByteOp b s) := by
  rcases txRawByteOp_cases b s with ⟨-, e⟩ | ⟨-, e⟩ <;> rw [e] <;>
    exact ⟨rfl, rfl, rfl, rfl, rfl, rfl, rfl, rfl⟩

/-- A free value drawn before is no report. -/
theorem SendsOnly.of_read {b : Byte} {u t : State} (hu : u = s ∨ u = s.draw 1)
    (h : SendsOnly b u t) : SendsOnly b s t := by
  rcases hu with rfl | rfl <;> exact h

theorem step_tx_sendsOnly (hi : s.Inv) (hs : s.sched = []) (hp : s.phase = .tx) :
    ∃ t b, step s = .next t ∧ SendsOnly b s t := by
  cases ho : s.op with
  | cmd =>
    obtain ⟨hpos, hl⟩ := hi.tx_cmd hp ho
    rcases Nat.lt_or_eq_of_le hpos with hlt | hlast
    · exact ⟨_, _, step_txCmd hs hp ho hl hlt,
        (sendsOnly_transmitByte _ _).of_read (cmdByteAt_state s _)⟩
    · exact ⟨_, _, step_txCmd_last hs hp ho hlast, sendsOnly_decoderEntry _ s⟩
  | raw =>
    exact ⟨_, _, step_txRaw hs hp ho, (sendsOnly_txRawByteOp _ _).of_read (readCell_state _ _ s)⟩

end TransmitSteps

/-- Settles O20: the invariants keep `tx_pos` and PLEN where R132's table has a row, and that row is a
`transmitByte` or the last step (`step_tx_sendsOnly`). -/
theorem transmitPhaseCannotFail : Obligations.TransmitPhaseCannotFail :=
  fun _ => step_tx_sendsOnly

section TransmitRuns

variable {s : State}

/-! ### The state after a part of the frame -/

/-- A started operation when the bytes `out` have been sent and more follow. -/
def State.transmitted (out : List Byte) (s : State) : State :=
  { s with
    txHist := s.txHist ++ out
    chkAcc := if s.op = .cmd then s.chkAcc + checksum8 out else s.chkAcc
    reqType := out.getD 3 s.reqType
    txPos := BitVec.ofNat 9 out.length }

theorem transmitted_nil (h : s.txPos = 0) : s.transmitted [] = s := by
  have hpos : BitVec.ofNat 9 0 = s.txPos := h.symm
  simp [State.transmitted, hpos]

theorem transmitted_txPos {out : List Byte} (h : out.length ≤ 258) :
    (s.transmitted out).txPos.toNat = out.length := toNat_rawlen h

theorem getD_concat {α : Type} (l : List α) (a d : α) (n : Nat) :
    (l ++ [a]).getD n d = if l.length = n then a else l.getD n d := by
  rcases Nat.lt_trichotomy n l.length with h | rfl | h
  · rw [List.getD_append l [a] d n h, if_neg h.ne']
  · simp
  · rw [if_neg h.ne, List.getD_eq_default l d h.le, List.getD_eq_default _ d (by simpa using h)]

theorem transmitByte_transmitted (b : Byte) {out : List Byte} (h : out.length ≤ 258) :
    transmitByte b (s.transmitted out) = s.transmitted (out ++ [b]) := by
  simp only [transmitByte, transmitted_txPos h]
  simp only [State.transmitted, getD_concat, checksum8_snoc, List.append_assoc, List.length_append,
    List.length_singleton, BitVec.ofNat_add]
  by_cases ho : s.op = .cmd <;> simp [ho, BitVec.add_assoc]

/-- Steps that each send the next one of `bytes` send them all. -/
theorem runSteps_transmitted (h0 : s.txPos = 0) {bytes : List Byte}
    (hstep : ∀ out b, out ++ [b] <+: bytes →
      step (s.transmitted out) = .next (s.transmitted (out ++ [b]))) :
    runSteps bytes.length s = .next (s.transmitted bytes) := by
  induction bytes using List.reverseRecOn with
  | nil => rw [transmitted_nil h0]; rfl
  | append_singleton out b ih =>
    have hout := ih fun a c hac => hstep a c (hac.trans (List.prefix_append out [b]))
    rw [List.length_append, runSteps_add hout]
    exact (runSteps_succ (hstep out b List.prefix_rfl)).trans (runSteps_zero _)

end TransmitRuns

section CmdRun

/-! ### CMD -/

variable {s : State} {p : List Byte} (hs : s.sched = []) (hp : s.phase = .tx) (ho : s.op = .cmd)
  (hmax : p.length ≤ 253) (hl : s.plen.toNat = p.length) (hh : s.txbuf.Holds p)

include hl hh in
/-- The byte at a position before the CRC is the frame's, and its read draws nothing. -/
theorem cmdByteAt_of_holds {pos : Nat} {b : Byte}
    (h : (frameHeader (lenByte p.length) s.txtype ++ p)[pos]? = some b) :
    s.cmdByteAt pos = (b, s) := by
  match pos with
  | 0 | 1 | 3 => cases h; rfl
  | 2 =>
    cases h
    rw [← hl]; rfl
  | i + 4 =>
    have hget : p[i]? = some b := h
    obtain ⟨hi, -⟩ := List.getElem?_eq_some_iff.1 hget
    exact readCell_of_some s.txbuf ((hh i hi).trans hget) s

include hs hp ho hmax hl hh

theorem step_transmitted_cmd {out : List Byte} {b : Byte}
    (hout : out ++ [b] <+: frameHeader (lenByte p.length) s.txtype ++ p) :
    step (s.transmitted out) = .next (s.transmitted (out ++ [b])) := by
  obtain ⟨more, hmore⟩ := hout
  have hlen := congrArg List.length hmore
  simp only [List.length_append, List.length_singleton, length_frameHeader] at hlen
  have hpos := transmitted_txPos (s := s) (out := out) (by omega)
  have hbyte : (s.transmitted out).cmdByteAt out.length = (b, s.transmitted out) :=
    cmdByteAt_of_holds (s := s.transmitted out) hl hh (hmore ▸ by simp)
  have hstep := step_txCmd (s := s.transmitted out) hs hp ho (hl ▸ hmax) (by
    rw [hpos]; change _ < s.plen.toNat + 4; omega)
  rw [hstep, hpos, hbyte, transmitByte_transmitted b (by omega)]

/-- 41_encode.md R143 for CMD: when all but the CRC is sent, `chk_acc` is the CRC of the frame. -/
theorem runSteps_cmd (h0 : s.txPos = 0) (hacc : s.chkAcc = 0) :
    runSteps (p.length + 5) s = .next
      { s with
        txHist := s.txHist ++ encodeFrame s.txtype p
        chkAcc := checksum8 (frameHeader (lenByte p.length) s.txtype ++ p)
        reqType := s.txtype
        txPos := BitVec.ofNat 9 (p.length + 4)
        phase := .rx
        rxState := .sync
        syncCnt := 0 } := by
  have hbody := runSteps_transmitted h0 fun _ _ => step_transmitted_cmd hs hp ho hmax hl hh
  have hlen : (frameHeader (lenByte p.length) s.txtype ++ p).length = p.length + 4 := by
    rw [List.length_append, length_frameHeader, Nat.add_comm]
  have hcrc := step_txCmd_last (s := s.transmitted (frameHeader (lenByte p.length) s.txtype ++ p))
    hs hp ho (by rw [transmitted_txPos (by omega), hlen]; exact congrArg (· + 4) hl.symm)
  rw [hlen] at hbody
  rw [runSteps_add (n := 1) hbody, runSteps_succ hcrc, runSteps_zero, encodeFrame_eq]
  simp [decoderEntry, txWrite, State.transmitted, ho, hacc, frameHeader]

end CmdRun

section RawRun

/-! ### RAW -/

variable {s : State} {bytes : List Byte} (hs : s.sched = []) (hp : s.phase = .tx) (ho : s.op = .raw)
  (hmax : bytes.length ≤ 258) (hh : s.txbuf.Holds bytes)
include hs hp ho hmax hh

theorem step_transmitted_raw {out : List Byte} {b : Byte} (hout : out ++ [b] <+: bytes) :
    step (s.transmitted out) = .next (txRawByteOp b (s.transmitted out)) := by
  obtain ⟨more, rfl⟩ := hout
  simp only [List.length_append, List.length_singleton] at hmax
  have hpos := transmitted_txPos (s := s) (out := out) (by omega)
  have hbyte : s.txbuf.readByte out.length = some b := by simp [hh out.length (by simp)]
  have hcell : readCell (s.transmitted out).txbuf out.length (s.transmitted out) =
      (b, s.transmitted out) := readCell_of_some _ hbyte _
  have hstep := step_txRaw (s := s.transmitted out) hs hp ho
  rwa [hpos, hcell] at hstep

/-- Before the last byte a RAW step only adds to what has been sent. -/
theorem step_transmitted_raw_more {out : List Byte} {b : Byte} (hout : out ++ [b] <+: bytes)
    (hmore : out.length + 1 < s.rawlen.toNat) :
    step (s.transmitted out) = .next (s.transmitted (out ++ [b])) := by
  have hlen := hout.length_le
  rw [List.length_append, List.length_singleton] at hlen
  have hpos := transmitted_txPos (s := s) (out := out) (by omega)
  have hbyte := txRawByteOp_eq_transmitByte (s := s.transmitted out) b ho (by
    rw [hpos]; exact hmore.ne)
  rw [step_transmitted_raw hs hp ho hmax hh hout, hbyte, transmitByte_transmitted b (by omega)]

/-- 41_encode.md R143 for RAW: the last byte leaves `tx_pos` where it is. -/
theorem runSteps_raw (h0 : s.txPos = 0) (hl : s.rawlen.toNat = bytes.length) (hne : bytes ≠ []) :
    runSteps bytes.length s = .next
      { s with
        txHist := s.txHist ++ bytes
        reqType := bytes.getD 3 s.reqType
        txPos := BitVec.ofNat 9 (bytes.length - 1)
        phase := .rx
        rxState := .sync
        syncCnt := 0 } := by
  obtain ⟨out, last, rfl⟩ := bytes.eq_nil_or_concat'.resolve_left hne
  have hinit : runSteps out.length s = .next (s.transmitted out) := by
    refine runSteps_transmitted h0 fun part b hpart => ?_
    have hlen := hpart.length_le
    refine step_transmitted_raw_more hs hp ho hmax hh (hpart.trans (List.prefix_append out _)) ?_
    simp only [List.length_append, List.length_singleton] at hlen hl
    omega
  have hlast := step_transmitted_raw hs hp ho hmax hh List.prefix_rfl
  rw [List.length_append, List.length_singleton] at hmax hl ⊢
  have hpos := transmitted_txPos (s := s) (out := out) (by omega)
  rw [txRawByteOp_last last (hpos.symm ▸ hl.symm), hpos] at hlast
  rw [runSteps_add (n := 1) hinit, runSteps_succ hlast, runSteps_zero, getD_concat]
  simp [decoderEntry, txWrite, State.transmitted, ho]

end RawRun

/-- Settles O21: the frame up to its last byte goes out by `runSteps_transmitted`, and the last step enters
the decoder (`runSteps_cmd`, `runSteps_raw`). -/
theorem transmitPhaseSendsTheFrame : Obligations.TransmitPhaseSendsTheFrame := by
  refine ⟨fun s p hs hp ho h0 hacc hmax hl hh => runSteps_cmd hs hp ho hmax hl hh h0 hacc, ?raw⟩
  case raw =>
    intro s bytes req hs hp ho h0 _ hmax hl hh hreq
    have hne : bytes ≠ [] := by rintro rfl; cases hreq
    have hget : bytes.getD 3 s.reqType = req := by rw [List.getD_eq_getElem?_getD, hreq]; rfl
    rw [runSteps_raw hs hp ho hmax hh h0 hl hne, hget]

end Sys2Proof.Machine

/-! PROOF. `decode` as a function of the stream (42_decode.md R159): `AttemptEnds` says how an attempt ends
and on which bytes, and an attempt of `decodeStream` is one of these, whatever follows it. The byte counts
(R160), the round trip with ENC (R163) and the synchronisation bound (R165) are read off from it. -/

namespace Sys2Proof.Machine

section DecodeStream

variable {k k' cnt : Nat} {s junk taken : List Byte} {st : RxStatus} {f : Option RspFields}

/-! ### From the second preamble byte on -/

/-- How an attempt that has found its `0xFF` ends, and the bytes it takes after it. -/
inductive TailEnds : List Byte → RxStatus → Option RspFields → Prop
  | noise {b : Byte} (hb : b ≠ Config.preamble1) : TailEnds [b] .formatErr none
  | shortLen {len : Byte} (hlen : len.toNat < Config.minLen) :
      TailEnds [Config.preamble1, len] .formatErr none
  | checksumErr {ty crc : Byte} {p : List Byte} (hp : p.length ≤ 253)
      (hcrc : checksum8 (frameHeader (lenByte p.length) ty ++ p) ≠ crc) :
      TailEnds (Config.preamble1 :: lenByte p.length :: ty :: (p ++ [crc])) .checksumErr none
  | ok {ty crc : Byte} {p : List Byte} (hp : p.length ≤ 253)
      (hcrc : checksum8 (frameHeader (lenByte p.length) ty ++ p) = crc) :
      TailEnds (Config.preamble1 :: lenByte p.length :: ty :: (p ++ [crc])) .ok
        (some ⟨lenByte p.length, ty, p, crc⟩)

theorem decodeSecond_header {len : Byte} (hlen : 2 ≤ len.toNat) (k : Nat) (r : List Byte) :
    decodeSecond k (Config.preamble1 :: len :: r) = decodeSpan len (k + 2) r := by
  have hmin : ¬ len.toNat < Config.minLen := Nat.not_lt.2 hlen
  simp [decodeSecond, decodeLength, hmin]

/-- 42_decode.md R152 to R156 on a whole frame with any CRC byte, from the second preamble byte on. -/
theorem decodeSecond_frame {p : List Byte} (hp : p.length ≤ 253) (k : Nat) (ty crc : Byte)
    (more : List Byte) :
    decodeSecond k (Config.preamble1 :: lenByte p.length :: ty :: (p ++ [crc]) ++ more) =
      if checksum8 (frameHeader (lenByte p.length) ty ++ p) = crc then
        .done .ok (k + (p.length + 4)) (some ⟨lenByte p.length, ty, p, crc⟩)
      else .done .checksumErr (k + (p.length + 4)) none := by
  have hlen : 2 ≤ (lenByte p.length).toNat := by rw [toNat_lenByte hp]; omega
  have hk : k + 2 + (p.length + 2) = k + (p.length + 4) := by omega
  have hspan := decodeSpan_frame hp (k + 2) ty crc more
  rw [hk] at hspan
  simpa using (decodeSecond_header hlen k _).trans hspan

theorem decodeSecond_of_tailEnds (h : TailEnds taken st f) (k : Nat) (more : List Byte) :
    decodeSecond k (taken ++ more) = .done st (k + taken.length) f := by
  cases h with
  | noise hb => simp [decodeSecond, hb]
  | shortLen hlen => simp [decodeSecond, decodeLength, hlen]
  | checksumErr hp hcrc => rw [decodeSecond_frame hp, if_neg hcrc]; simp
  | ok hp hcrc => rw [decodeSecond_frame hp, if_pos hcrc]; simp

/-- A stream of at least LEN bytes opens with TYPE, a payload of `LEN - 2` bytes and a CRC byte. -/
theorem exists_span {len : Byte} (hlen : 2 ≤ len.toNat) (hs : len.toNat ≤ s.length) :
    ∃ ty p crc more, s = ty :: (p ++ crc :: more) ∧ p.length ≤ 253 ∧ len = lenByte p.length := by
  cases s with
  | nil => exact absurd (hlen.trans hs) (by decide)
  | cons ty r =>
    rw [List.length_cons] at hs
    have hmax := len.isLt
    have hp : (r.take (len.toNat - 2)).length = len.toNat - 2 := by
      rw [List.length_take]; omega
    have hbyte : len = lenByte (len.toNat - 2) := by
      rw [lenByte, Nat.sub_add_cancel hlen, BitVec.ofNat_toNat, BitVec.setWidth_eq]
    have hcut : len.toNat - 2 < r.length := by omega
    refine ⟨ty, r.take (len.toNat - 2), r[len.toNat - 2], r.drop (len.toNat - 2 + 1), ?_, by omega,
      hp.symm ▸ hbyte⟩
    rw [← List.drop_eq_getElem_cons hcut, List.take_append_drop]

theorem tailEnds_of_decodeSpan {len : Byte} (hlen : 2 ≤ len.toNat)
    (h : decodeSpan len k s = .done st k' f) :
    ∃ taken more, s = taken ++ more ∧ TailEnds (Config.preamble1 :: len :: taken) st f := by
  by_cases hs : s.length < len.toNat
  · rw [decodeSpan, if_pos hs] at h; cases h
  · obtain ⟨ty, p, crc, more, rfl, hp, rfl⟩ := exists_span hlen (Nat.not_lt.1 hs)
    rw [decodeSpan_frame hp] at h
    refine ⟨ty :: (p ++ [crc]), more, by simp, ?_⟩
    split at h <;> cases h
    · exact .ok hp ‹_›
    · exact .checksumErr hp ‹_›

theorem tailEnds_of_decodeSecond (h : decodeSecond k s = .done st k' f) :
    ∃ taken more, s = taken ++ more ∧ TailEnds taken st f := by
  match s with
  | [] => cases h
  | b :: r =>
    by_cases hb : b = Config.preamble1
    · rw [decodeSecond, if_pos hb] at h
      match r with
      | [] => cases h
      | len :: r =>
        by_cases hlen : len.toNat < Config.minLen
        · rw [decodeLength, if_pos hlen] at h
          cases h
          exact ⟨[b, len], r, rfl, hb ▸ .shortLen hlen⟩
        · rw [decodeLength, if_neg hlen] at h
          obtain ⟨taken, more, rfl, htail⟩ := tailEnds_of_decodeSpan (Nat.not_lt.1 hlen) h
          exact ⟨b :: len :: taken, more, rfl, hb ▸ htail⟩
    · rw [decodeSecond, if_neg hb] at h
      cases h
      exact ⟨[b], r, rfl, .noise hb⟩

/-! ### SYNC -/

/-- How an attempt that has discarded `cnt` bytes ends, and the bytes it takes from there. -/
inductive SyncEnds (cnt : Nat) : List Byte → RxStatus → Option RspFields → Prop
  | timeout {junk : List Byte} (hjunk : ∀ b ∈ junk, b ≠ Config.preamble0)
      (hlen : cnt + junk.length = 16) : SyncEnds cnt junk .timeout none
  | preamble {junk tail : List Byte} {st : RxStatus} {f : Option RspFields}
      (hjunk : ∀ b ∈ junk, b ≠ Config.preamble0) (hlen : cnt + junk.length ≤ 15)
      (htail : TailEnds tail st f) : SyncEnds cnt (junk ++ Config.preamble0 :: tail) st f

/-- A whole attempt, from decoder entry. -/
abbrev AttemptEnds := SyncEnds 0

theorem SyncEnds.discard {b : Byte} (hb : b ≠ Config.preamble0) (h : SyncEnds (cnt + 1) taken st f) :
    SyncEnds cnt (b :: taken) st f := by
  cases h with
  | timeout hjunk hlen =>
    exact .timeout (List.forall_mem_cons.2 ⟨hb, hjunk⟩) (by rw [List.length_cons]; omega)
  | preamble hjunk hlen htail =>
    exact .preamble (List.forall_mem_cons.2 ⟨hb, hjunk⟩) (by rw [List.length_cons]; omega) htail

/-- 42_decode.md R151: up to 15 bytes other than `0xFF` are discarded. -/
theorem decodeSync_discards (hjunk : ∀ b ∈ junk, b ≠ Config.preamble0) (hlen : cnt + junk.length ≤ 15)
    (k : Nat) (r : List Byte) :
    decodeSync cnt k (junk ++ r) = decodeSync (cnt + junk.length) (k + junk.length) r := by
  induction junk generalizing cnt k with
  | nil => rfl
  | cons b junk ih =>
    obtain ⟨hb, hjunk⟩ := List.forall_mem_cons.1 hjunk
    rw [List.length_cons] at hlen ⊢
    have hcnt : cnt ≠ Config.syncLimit := by simp only [Config.syncLimit]; omega
    rw [List.cons_append, decodeSync, if_neg hb, if_neg hcnt, ih hjunk (by omega)]
    congr 1 <;> omega

theorem decodeSync_of_syncEnds (h : SyncEnds cnt taken st f) (hcnt : cnt ≤ 15) (k : Nat)
    (more : List Byte) : decodeSync cnt k (taken ++ more) = .done st (k + taken.length) f := by
  cases h with
  | timeout hjunk hlen =>
    obtain ⟨init, b, rfl⟩ := taken.eq_nil_or_concat'.resolve_left (by rintro rfl; simp at hlen; omega)
    obtain ⟨hinit, hb⟩ := List.forall_mem_append.1 hjunk
    rw [List.length_append, List.length_singleton] at hlen ⊢
    have hlast : cnt + init.length = Config.syncLimit := by simp only [Config.syncLimit]; omega
    rw [List.append_assoc, decodeSync_discards hinit hlast.le, List.singleton_append, decodeSync,
      if_neg (hb b List.mem_cons_self), if_pos hlast]
    rfl
  | preamble hjunk hlen htail =>
    rw [List.append_assoc, decodeSync_discards hjunk hlen, List.cons_append, decodeSync, if_pos rfl,
      decodeSecond_of_tailEnds htail, List.length_append, List.length_cons]
    congr 1; omega

theorem syncEnds_of_decodeSync (h : decodeSync cnt k s = .done st k' f) (hcnt : cnt ≤ 15) :
    ∃ taken more, s = taken ++ more ∧ SyncEnds cnt taken st f := by
  induction s generalizing cnt k with
  | nil => cases h
  | cons b r ih =>
    rw [decodeSync] at h
    by_cases hb : b = Config.preamble0
    · rw [if_pos hb] at h
      obtain ⟨tail, more, rfl, htail⟩ := tailEnds_of_decodeSecond h
      exact ⟨b :: tail, more, rfl, hb ▸ .preamble (junk := []) nofun hcnt htail⟩
    · rw [if_neg hb] at h
      by_cases hlast : cnt = Config.syncLimit
      · rw [if_pos hlast] at h
        cases h
        exact ⟨[b], r, rfl, .timeout (List.forall_mem_singleton.2 hb) (congrArg (· + 1) hlast)⟩
      · rw [if_neg hlast] at h
        obtain ⟨taken, more, rfl, hends⟩ := ih h (by simp only [Config.syncLimit] at hlast; omega)
        exact ⟨b :: taken, more, rfl, hends.discard hb⟩

/-! ### The whole attempt -/

/-- Nothing beyond the bytes an attempt takes matters to it. -/
theorem decodeStream_of_attemptEnds (h : AttemptEnds taken st f) (more : List Byte) :
    decodeStream (taken ++ more) = .done st taken.length f := by
  rw [decodeStream, decodeSync_of_syncEnds h (Nat.zero_le 15), Nat.zero_add]

theorem attemptEnds_of_decodeStream (h : decodeStream s = .done st k f) :
    ∃ taken more, s = taken ++ more ∧ k = taken.length ∧ AttemptEnds taken st f := by
  obtain ⟨taken, more, rfl, hends⟩ := syncEnds_of_decodeSync h (Nat.zero_le 15)
  rw [decodeStream_of_attemptEnds hends] at h
  cases h
  exact ⟨taken, more, rfl, rfl, hends⟩

/-- Fewer than 16 bytes with no `0xFF` among them do not end an attempt. -/
theorem decodeStream_junk (hjunk : ∀ b ∈ junk, b ≠ Config.preamble0) (hlen : junk.length ≤ 15) :
    decodeStream junk = .blocked junk.length := by
  have hdiscard := decodeSync_discards (cnt := 0) hjunk (by omega) 0 []
  rwa [List.append_nil, Nat.zero_add, decodeSync] at hdiscard

/-- What ENC sends, after up to 15 bytes with no `0xFF` among them, is an attempt that ends with OK. -/
theorem attemptEnds_encodeFrame {p : List Byte} (hjunk : ∀ b ∈ junk, b ≠ Config.preamble0)
    (hlen : junk.length ≤ 15) (hp : p.length ≤ 253) (ty : Byte) :
    AttemptEnds (junk ++ encodeFrame ty p) .ok
      (some ⟨lenByte p.length, ty, p, checksum8 (frameHeader (lenByte p.length) ty ++ p)⟩) :=
  .preamble hjunk (by omega) (.ok hp rfl)

theorem SyncEnds.ok_iff_isSome (h : SyncEnds cnt taken st f) : st = .ok ↔ f.isSome := by
  cases h with
  | timeout => decide
  | preamble _ _ htail =>
    cases htail with
    | noise | shortLen | checksumErr => decide
    | ok => exact ⟨fun _ => rfl, fun _ => rfl⟩

/-- 42_decode.md R160 from the `0xFF` on, with `d` bytes before it: the bytes at the places of the second
preamble byte and of LEN, and the bytes taken. -/
theorem TailEnds.counts {tail : List Byte} {st : RxStatus} {f : Option RspFields}
    (h : TailEnds tail st f) {d : Nat} (hd : d ≤ 15) (more : List Byte) :
    st = .formatErr ∧ d + (tail.length + 1) = d + 2 ∧ (tail ++ more)[0]? ≠ some 0x00 ∨
      (tail ++ more)[0]? = some 0x00 ∧ ∃ len : Byte, (tail ++ more)[1]? = some len ∧
        (st = .formatErr ∧ d + (tail.length + 1) = d + 3 ∧ len.toNat < 2 ∨
          (st = .ok ∨ st = .checksumErr) ∧ d + (tail.length + 1) = d + 3 + len.toNat ∧
            2 ≤ len.toNat ∧ 5 ≤ d + (tail.length + 1) ∧ d + (tail.length + 1) ≤ 273) := by
  cases h with
  | noise hb => exact .inl ⟨rfl, rfl, fun h => hb (Option.some.inj h)⟩
  | shortLen hlen => exact .inr ⟨rfl, _, rfl, .inl ⟨rfl, rfl, hlen⟩⟩
  | checksumErr hp _ =>
    refine .inr ⟨rfl, _, rfl, .inr ⟨.inr rfl, ?_⟩⟩
    simp only [toNat_lenByte hp, List.length_cons, List.length_append, List.length_nil]
    omega
  | ok hp _ =>
    refine .inr ⟨rfl, _, rfl, .inr ⟨.inl rfl, ?_⟩⟩
    simp only [toNat_lenByte hp, List.length_cons, List.length_append, List.length_nil]
    omega

end DecodeStream

/-- Settles O31: the frame is an attempt of its own (`attemptEnds_encodeFrame`), with nothing after it. -/
theorem decodeOfEncodeIsTheFrame : Obligations.DecodeOfEncodeIsTheFrame := by
  intro junk ty p hlen hjunk hp
  have hends := attemptEnds_encodeFrame hjunk hlen hp ty
  have hdecode := decodeStream_of_attemptEnds hends []
  rw [List.append_nil, List.length_append, length_encodeFrame, ← Nat.add_assoc] at hdecode
  exact ⟨length_encodeFrame ty p, hdecode⟩

/-- Settles O32, by the two ends of `SyncEnds`: the 16th byte without a `0xFF` is the timeout, and 15 of
them leave the frame that follows whole. -/
theorem syncBoundIsSixteenBytes : Obligations.SyncBoundIsSixteenBytes := by
  intro junk hjunk
  refine ⟨?timeout, ?frame, fun hlen => decodeStream_junk hjunk (by omega)⟩
  case timeout =>
    intro more hlen
    have hdecode := decodeStream_of_attemptEnds (.timeout hjunk (by omega)) more
    rwa [hlen] at hdecode
  case frame =>
    intro ty p more hlen hp
    have hends := attemptEnds_encodeFrame hjunk hlen.le hp ty
    exact ⟨_, _, decodeStream_of_attemptEnds hends more, rfl, rfl⟩

/-- Settles O30: the stream is the bytes of an `AttemptEnds` and what follows them, which
`decodeStream_of_attemptEnds` leaves free; `TailEnds.counts` counts the bytes after the `0xFF`. -/
theorem decodeConsumesTheCountedBytes : Obligations.DecodeConsumesTheCountedBytes := by
  intro s st k f h
  obtain ⟨taken, more, rfl, rfl, hends⟩ := attemptEnds_of_decodeStream h
  refine ⟨by simp, ?counts, hends.ok_iff_isSome, fun more' => ?free⟩
  case free => rw [List.take_left]; exact decodeStream_of_attemptEnds hends more'
  case counts =>
    cases hends with
    | timeout hjunk hlen =>
      rw [Nat.zero_add] at hlen
      exact .inl ⟨rfl, hlen, by rw [← hlen, List.take_left]; exact hjunk⟩
    | @preamble junk tail _ _ hjunk hlen htail =>
      rw [Nat.zero_add] at hlen
      have hcounts := htail.counts hlen more
      refine .inr ⟨junk.length, hlen, ?_, ?_, ?_⟩
      · rw [List.append_assoc, List.take_left]; exact hjunk
      · simp [Config.preamble0]
      · simpa [List.getElem?_append_right] using hcounts

end Sys2Proof.Machine

/-! PROOF. The receive states (42_decode.md R151 to R156) and their transitions (R162): each row of DEC on the
byte it takes, then every step that goes on. -/

namespace Sys2Proof.Machine

section ReceiveRows

variable {s : State}

theorem exec_rxValidate (hp : s.phase = .rx) (hs : s.rxState = .validate) :
    exec .rxValidate s = .next (raiseStatus (if s.chkAcc = s.rcrc then .ok else .checksumErr) s) :=
  if_pos ⟨hp, hs⟩

/-- Below the bound `sync_cnt` counts without wrapping. -/
theorem toNat_syncCnt_succ {cnt : BitVec 4} (h : cnt.toNat < 15) :
    (cnt + 1).toNat = cnt.toNat + 1 := by
  bv_omega

end ReceiveRows

/-- Settles O22: the byte is taken (`rxStep_of_cons`), and each line of R151's pseudocode is a branch of
`syncByte`. -/
theorem syncSearchesForThePreamble : Obligations.SyncSearchesForThePreamble := by
  intro s b r hp hs he
  have htake : exec .rxSync s = .next (syncByte b { s with rxStream := r }) :=
    rxStep_of_cons hp hs he
  rw [htake]
  exact ⟨fun hb => congrArg _ (if_pos hb),
    fun hb hc => congrArg _ ((if_neg hb).trans (if_pos hc)),
    fun hb hc => ⟨s.syncCnt + 1, toNat_syncCnt_succ hc,
      congrArg _ ((if_neg hb).trans (if_neg hc.ne))⟩⟩

/-- Settles O23: the byte is taken (`rxStep_of_cons`) and one test decides. -/
theorem headerErrorsAreFormatErrors : Obligations.HeaderErrorsAreFormatErrors := by
  refine ⟨?second, ?length⟩
  case second =>
    intro s b r hp hs he
    have htake : exec .rxSecondPreamble s = .next (secondPreambleByte b { s with rxStream := r }) :=
      rxStep_of_cons hp hs he
    rw [htake]
    exact ⟨fun hb => congrArg _ (if_pos hb), fun hb => congrArg _ (if_neg hb)⟩
  case length =>
    intro s b r hp hs he
    have htake : exec .rxLength s = .next (lengthByte b { s with rxStream := r }) :=
      rxStep_of_cons hp hs he
    rw [htake]
    exact ⟨fun hb => congrArg _ (if_pos hb), fun hb => congrArg _ (if_neg (Nat.not_lt.2 hb))⟩

/-- Settles O25: `crcByte` leaves `chk_acc` alone, and VALIDATE raises the outcome of its comparison. -/
theorem crcIsTakenAndValidated : Obligations.CrcIsTakenAndValidated :=
  ⟨fun _ _ _ => rxStep_of_cons, fun _ => exec_rxValidate⟩

section ReceiveTransitions

variable {s t : State}

/-! ### Where each row goes -/

@[simp] theorem storeSpanByte_status (b : Byte) (s : State) :
    (storeSpanByte b s).status = s.status := by
  rcases storeSpanByte_cases b s with ⟨-, e⟩ | ⟨-, e⟩ <;> rw [e]

@[simp] theorem storeSpanByte_rxState (b : Byte) (s : State) :
    (storeSpanByte b s).rxState = s.rxState := by
  rcases storeSpanByte_cases b s with ⟨-, e⟩ | ⟨-, e⟩ <;> rw [e]

@[simp] theorem storeSpanByte_rxStream (b : Byte) (s : State) :
    (storeSpanByte b s).rxStream = s.rxStream := by
  rcases storeSpanByte_cases b s with ⟨-, e⟩ | ⟨-, e⟩ <;> rw [e]

theorem rxSync_transition (h : exec .rxSync s = .next t) : ∃ b, s.rxStream = b :: t.rxStream ∧
    (b = 0xFF ∧ t.rxState = .secondPreamble ∧ t.status = s.status ∨
      b ≠ 0xFF ∧ s.syncCnt.toNat < 15 ∧ t.rxState = .sync ∧
        t.syncCnt.toNat = s.syncCnt.toNat + 1 ∧ t.status = s.status ∨
      b ≠ 0xFF ∧ s.syncCnt.toNat = 15 ∧ t.rxState = .terminal ∧ t.status = .timeout) := by
  obtain ⟨-, hs, b, r, he, rfl⟩ := rxStep_eq_next.1 h
  rcases syncByte_cases b { s with rxStream := r } with ⟨hb, e⟩ | ⟨hb, hc, e⟩ | ⟨hb, hc, e⟩ <;> rw [e]
  · exact ⟨b, he, .inl ⟨hb, rfl, rfl⟩⟩
  · exact ⟨b, he, .inr (.inr ⟨hb, hc, rfl, rfl⟩)⟩
  · have hlt : s.syncCnt.toNat < 15 := Nat.lt_of_le_of_ne (Nat.le_of_lt_succ s.syncCnt.isLt) hc
    exact ⟨b, he, .inr (.inl ⟨hb, hlt, hs, toNat_syncCnt_succ hlt, rfl⟩)⟩

theorem rxSecondPreamble_transition (h : exec .rxSecondPreamble s = .next t) :
    ∃ b, s.rxStream = b :: t.rxStream ∧
      (b = 0x00 ∧ t.rxState = .length ∧ t.status = s.status ∨
        b ≠ 0x00 ∧ t.rxState = .terminal ∧ t.status = .formatErr) := by
  obtain ⟨-, -, b, r, he, rfl⟩ := rxStep_eq_next.1 h
  rcases secondPreambleByte_cases b { s with rxStream := r } with ⟨hb, e⟩ | ⟨hb, e⟩ <;> rw [e]
  · exact ⟨b, he, .inl ⟨hb, rfl, rfl⟩⟩
  · exact ⟨b, he, .inr ⟨hb, rfl, rfl⟩⟩

theorem rxLength_transition (h : exec .rxLength s = .next t) :
    ∃ b, s.rxStream = b :: t.rxStream ∧
      (2 ≤ b.toNat ∧ t.rxState = .payload ∧ t.rxIdx = 0 ∧ t.status = s.status ∨
        b.toNat < 2 ∧ t.rxState = .terminal ∧ t.status = .formatErr) := by
  obtain ⟨-, -, b, r, he, rfl⟩ := rxStep_eq_next.1 h
  rcases lengthByte_cases b { s with rxStream := r } with ⟨hb, e⟩ | ⟨hb, e⟩ <;> rw [e]
  · exact ⟨b, he, .inr ⟨hb, rfl, rfl⟩⟩
  · exact ⟨b, he, .inl ⟨hb, rfl, rfl, rfl⟩⟩

theorem rxPayload_transition (h : exec .rxPayload s = .next t) :
    t.status = s.status ∧ ∃ b, s.rxStream = b :: t.rxStream ∧
      (s.rxIdx.toNat + 2 = s.rlen.toNat ∧ t.rxState = .crc ∨
        s.rxIdx.toNat + 2 ≠ s.rlen.toNat ∧ t.rxState = .payload ∧ t.rxIdx = s.rxIdx + 1) := by
  obtain ⟨-, hs, b, r, he, rfl⟩ := rxStep_eq_next.1 h
  rcases payloadByte_cases b { s with rxStream := r } with ⟨hi, e⟩ | ⟨hi, e⟩ <;> rw [e]
  · exact ⟨by simp, b, by simpa using he, .inl ⟨hi, rfl⟩⟩
  · exact ⟨by simp, b, by simpa using he, .inr ⟨hi, by simpa using hs, rfl⟩⟩

theorem rxCrc_transition (h : exec .rxCrc s = .next t) :
    t.status = s.status ∧ t.rxState = .validate ∧ ∃ b, s.rxStream = b :: t.rxStream := by
  obtain ⟨-, -, b, r, he, rfl⟩ := rxStep_eq_next.1 h
  exact ⟨rfl, rfl, b, he⟩

theorem rxValidate_transition (h : exec .rxValidate s = .next t) :
    t.rxState = .terminal ∧ t.rxStream = s.rxStream ∧
      (s.chkAcc = s.rcrc ∧ t.status = .ok ∨ s.chkAcc ≠ s.rcrc ∧ t.status = .checksumErr) := by
  obtain ⟨-, h⟩ := ite_eq_next h nofun
  cases h
  by_cases hc : s.chkAcc = s.rcrc
  · exact ⟨rfl, rfl, .inl ⟨hc, if_pos hc⟩⟩
  · exact ⟨rfl, rfl, .inr ⟨hc, if_neg hc⟩⟩

theorem complete_transition (h : exec .complete s = .next t) :
    t.rxState = .terminal ∧ t.rxStream = s.rxStream ∧ t.phase = .idle ∧
      (s.op = .cmd → t.status = s.status) := by
  obtain ⟨⟨-, hs⟩, h⟩ := ite_eq_next h nofun
  cases h
  exact ⟨hs, rfl, rfl, fun ho => if_neg (by rw [ho]; decide)⟩

theorem step_rx {st : RxState} (hsched : s.sched = []) (hp : s.phase = .rx) (hs : s.rxState = st) :
    step s = exec (rxInstr st) s := by
  rw [step_unlisted_busy hsched (by simp [hp])]
  simp only [engineMove, engineInstr, hp, hs]

/-- DEC leaves RX only by the completion step. -/
theorem phase_rx_of_not_terminal (hsched : s.sched = []) (h : step s = .next t)
    (hp : s.phase = .rx) (hs : s.rxState ≠ .terminal) : t.phase = .rx := by
  rcases step_phaseMove h with hm | ⟨_, hr, -⟩
  · cases hm with
    | stays hstays => exact hstays.trans hp
    | starts idle => rw [hp] at idle; cases idle
    | sentLast tx => rw [hp] at tx; cases tx
    | completes _ terminal => exact absurd terminal hs
  · rw [hsched] at hr; cases hr

end ReceiveTransitions

section HostLeavesRxState

variable {s t : State}

/-! ### The host writes nothing of the receive state machine -/

theorem rxState_of_next {u : State} (h : (.next u : Result) = .next t)
    (hu : u.rxState = s.rxState) : t.rxState = s.rxState := by
  cases h; exact hu

@[simp] theorem readCell_rxState (m : Memory) (i : Nat) (s : State) :
    (readCell m i s).2.rxState = s.rxState := by
  rcases readCell_state m i s with e | e <;> simp [e]

@[simp] theorem readStat_rxState (s : State) : (readStat s).rxState = s.rxState := by
  unfold readStat; split <;> rfl

@[simp] theorem readResponseByte_rxState (v : Byte) (reliable : Bool) (s : State) :
    (readResponseByte v reliable s).rxState = s.rxState := by
  unfold readResponseByte; split <;> rfl

theorem collectReturn_rxState (k : ReturnKind) (s : State) :
    (collectReturn k s).rxState = s.rxState := by
  unfold collectReturn
  split
  · split <;> rfl
  · rfl

theorem readHreg_rxState {n : Nat} (h : readHreg n s = .next t) : t.rxState = s.rxState := by
  unfold readHreg at h
  split at h <;> cases h <;> simp

theorem writeHreg_rxState {n : Nat} {v : HostWord} (h : writeHreg n v s = .next t) :
    t.rxState = s.rxState := by
  unfold writeHreg at h
  split at h <;> cases h <;> rfl

theorem hostWriteTxbuf_rxState {i : Nat} {b : Byte} (h : hostWriteTxbuf i b s = .next t) :
    t.rxState = s.rxState := by
  obtain ⟨-, h⟩ := ite_eq_next h nofun
  exact rxState_of_next h rfl

theorem hostReadTxbuf_rxState {i : Nat} (h : hostReadTxbuf i s = .next t) :
    t.rxState = s.rxState := by
  obtain ⟨-, h⟩ := ite_eq_next h nofun
  exact rxState_of_next h (by simp)

theorem hostReadRxbuf_rxState {i : Nat} (h : hostReadRxbuf i s = .next t) :
    t.rxState = s.rxState := by
  obtain ⟨-, h⟩ := ite_eq_next h nofun
  split at h
  · exact rxState_of_next h (by simp)
  · exact rxState_of_next h rfl

/-- An act that waits changes nothing but the list of the host's acts. -/
theorem whenIdle_rxState {item : HostItem} {act : State → Result}
    (h : whenIdle item act s = .next t) (ha : act s = .next t → t.rxState = s.rxState) :
    t.rxState = s.rxState := by
  rcases whenIdle_eq_next.1 h with ⟨-, hr⟩ | ⟨-, rfl⟩
  · exact ha hr
  · rfl

theorem startCmd_rxState (h : startCmd s = .next t) : t.rxState = s.rxState := by
  obtain ⟨-, rfl⟩ := startCmd_eq_next.1 h
  rfl

theorem startRaw_rxState (h : startRaw s = .next t) : t.rxState = s.rxState := by
  obtain ⟨-, rfl⟩ := startRaw_eq_next.1 h
  rfl

theorem sendCommand_rxState {ty : Byte} {p : List Byte} (h : sendCommand ty p s = .next t) :
    t.rxState = s.rxState := by
  obtain ⟨-, rfl⟩ := sendCommand_eq_next.1 h
  rfl

theorem sendVerbatim_rxState {bytes : List Byte} (h : sendVerbatim bytes s = .next t) :
    t.rxState = s.rxState := by
  obtain ⟨-, rfl⟩ := sendVerbatim_eq_next.1 h
  rfl

theorem sendByCmd_rxState {ty : Byte} {p : List Byte} (h : sendByCmd ty p s = .next t) :
    t.rxState = s.rxState := whenIdle_rxState h sendCommand_rxState

theorem sendByRaw_rxState {bytes : List Byte} (h : sendByRaw bytes s = .next t) :
    t.rxState = s.rxState := whenIdle_rxState h sendVerbatim_rxState

theorem frameCrosses_rxState {via : Via} {ty len : Byte} {rest : List Byte}
    (h : frameCrosses via ty len rest s = .next t) : t.rxState = s.rxState := by
  cases via with
  | cmd => exact sendByCmd_rxState h
  | raw => exact sendByRaw_rxState h
  | rx => exact rxState_of_next h rfl

theorem commandThenCollect_rxState {k : ReturnKind} {ty : Byte} {p : List Byte}
    (h : commandThenCollect k ty p s = .next t) : t.rxState = s.rxState :=
  sendCommand_rxState (s := post (.collect k) s) h

theorem exec_rxState_of_hostCallable {i : Instr} (hi : i.hostCallable = true)
    (h : exec i s = .next t) : t.rxState = s.rxState := by
  cases i with
  | nop => exact whenIdle_rxState h fun hn => rxState_of_next hn rfl
  | cmd => exact whenIdle_rxState h startCmd_rxState
  | raw => exact whenIdle_rxState h startRaw_rxState
  | opselReserved => cases h
  | frMac | frVersion | frSetTxMode | frTxPower | frRadioParam | frOpMode | frAppData | frChSpaceSet
  | frChSpaceQry | frError | frAny => exact frameCrosses_rxState h
  | checksum8 | decode | correlate => exact rxState_of_next h rfl
  | encodeCommand ty payload =>
    obtain ⟨-, h⟩ := ite_eq_next h nofun
    exact rxState_of_next h rfl
  | getProtocolVersion | setOperatingMode | setTxPower | setChannelSpacing | setFrequency
  | setTxMode => exact whenIdle_rxState h commandThenCollect_rxState
  | transmitApplicationData bytes =>
    simp only [exec, execTransmitApplicationData] at h
    split at h
    · exact rxState_of_next h rfl
    · exact whenIdle_rxState h sendCommand_rxState
  | _ => cases hi

theorem runItem_rxState {item : HostItem} (h : runItem item s = .next t) :
    t.rxState = s.rxState := by
  rcases runItem_next_cases h with ⟨_, hi, h⟩ | ⟨_, _, -, h⟩ | ⟨_, -, h⟩ | ⟨_, -, rfl⟩ |
    ⟨_, _, -, h⟩ | ⟨_, -, h⟩ | ⟨_, _, -, h⟩ | ⟨_, -, h⟩ | ⟨_, -, h⟩ | ⟨_, -, rfl⟩
  · exact exec_rxState_of_hostCallable hi h
  · exact sendByCmd_rxState h
  · exact sendByRaw_rxState h
  · rfl
  · exact writeHreg_rxState h
  · exact readHreg_rxState h
  · exact hostWriteTxbuf_rxState h
  · exact hostReadTxbuf_rxState h
  · exact hostReadRxbuf_rxState h
  · exact collectReturn_rxState _ s

theorem hostMove_rxState (h : hostMove s = .next t) : t.rxState = s.rxState := by
  rcases hostMove_next_cases h with rfl | ⟨_, rest, -, -, h⟩
  · rfl
  · exact runItem_rxState (s := { s with hostq := rest }) h

end HostLeavesRxState

section TransmitEndsInSync

variable {s t : State}

/-! ### The TX phase ends in SYNC -/

/-- A step of the TX phase reports nothing, takes no byte, and leaves `rx_state` alone unless it enters
the decoder. -/
def TransmitMove (s t : State) : Prop :=
  t.status = s.status ∧ t.rxStream = s.rxStream ∧
    (t.phase = .rx ∧ t.rxState = .sync ∨ t.phase = .tx ∧ t.rxState = s.rxState)

theorem TransmitMove.of_read {m : Memory} {i : Nat} (h : TransmitMove (readCell m i s).2 t) :
    TransmitMove s t := by
  rcases readCell_state m i s with e | e <;> rw [e] at h <;> exact h

theorem transmitMove_txCmdByte (b : Byte) (hp : s.phase = .tx) : TransmitMove s (txCmdByte b s) :=
  ⟨rfl, rfl, .inr ⟨hp, rfl⟩⟩

theorem transmitMove_txRawByteOp (b : Byte) (hp : s.phase = .tx) :
    TransmitMove s (txRawByteOp b s) := by
  rcases txRawByteOp_cases b s with ⟨-, e⟩ | ⟨-, e⟩ <;> rw [e]
  · exact ⟨rfl, rfl, .inl ⟨rfl, rfl⟩⟩
  · exact ⟨rfl, rfl, .inr ⟨hp, rfl⟩⟩

theorem txCmdInstr_cases {i : Instr} {plen pos : Nat} (h : txCmdInstr plen pos = some i) :
    i = .txCmdPreamble0 ∨ i = .txCmdPreamble1 ∨ i = .txCmdLen ∨ i = .txCmdType ∨
      i = .txCmdPayload ∨ i = .txCmdCrc := by
  unfold txCmdInstr at h
  split_ifs at h <;> cases h <;> simp

theorem transmitMove_of_txCmdInstr {i : Instr} {plen pos : Nat} (hi : txCmdInstr plen pos = some i)
    (hp : s.phase = .tx) (h : exec i s = .next t) : TransmitMove s t := by
  rcases txCmdInstr_cases hi with rfl | rfl | rfl | rfl | rfl | rfl <;>
    obtain ⟨-, h⟩ := ite_eq_next h nofun
  · cases h; exact transmitMove_txCmdByte _ hp
  · cases h; exact transmitMove_txCmdByte _ hp
  · obtain ⟨-, h⟩ := ite_eq_next h nofun
    cases h; exact transmitMove_txCmdByte _ hp
  · cases h; exact transmitMove_txCmdByte s.txtype hp
  · cases h; exact .of_read (transmitMove_txCmdByte _ (by simp [hp]))
  · cases h; exact ⟨rfl, rfl, .inl ⟨rfl, rfl⟩⟩

theorem transmitMove_of_step (hsched : s.sched = []) (hp : s.phase = .tx) (h : step s = .next t) :
    TransmitMove s t := by
  cases ho : s.op with
  | cmd =>
    rw [step_tx hsched hp] at h
    rcases engineMove_next_cases h with ⟨i, hi, h⟩ | ⟨-, hidle, -⟩
    · simp only [engineInstr, hp, ho] at hi
      exact transmitMove_of_txCmdInstr hi hp h
    · rw [hp] at hidle; cases hidle
  | raw =>
    rw [step_txRaw hsched hp ho] at h
    cases h
    exact .of_read (transmitMove_txRawByteOp _ (by simp [hp]))

end TransmitEndsInSync

/-- Settles O28: the step is the host's move, a transmit step or the row of `rx_state` (`step_rx`), and each
row has its transition as a lemma. -/
theorem receiveTransitionsAreTheTable : Obligations.ReceiveTransitionsAreTheTable := by
  intro s t hsched h
  have hrow : ∀ {st}, s.phase = .rx → s.rxState = st → exec (rxInstr st) s = .next t :=
    fun hp hs => (step_rx hsched hp hs).symm.trans h
  exact ⟨fun hp => hostMove_rxState ((step_unlisted_idle hsched hp).symm.trans h),
    fun hp => transmitMove_of_step hsched hp h,
    fun hp hs => rxSync_transition (hrow hp hs),
    fun hp hs => rxSecondPreamble_transition (hrow hp hs),
    fun hp hs => rxLength_transition (hrow hp hs),
    fun hp hs => rxPayload_transition (hrow hp hs),
    fun hp hs => rxCrc_transition (hrow hp hs),
    fun hp hs => rxValidate_transition (hrow hp hs),
    fun hp hs => complete_transition (hrow hp hs),
    phase_rx_of_not_terminal hsched h⟩

end Sys2Proof.Machine

/-! PROOF. The correlation of the response type with the request type and the completion step
(43_dispatch_correlate.md R182 to R187). -/

namespace Sys2Proof.Machine

section Correlation

variable {s : State}

/-! ### `correlate` -/

theorem correlateTypes_of_ne_ok {st : RxStatus} (h : st ≠ .ok) (req rsp : Byte) :
    correlateTypes st req rsp = st :=
  if_pos h

/-- The types `correlate` accepts: the response repeats the request, or is the answer to a channel-space
set. -/
def TypesAgree (req rsp : Byte) : Prop := rsp = req ∨ req = 0xF0 ∧ rsp = 0xF1

/-- Everything `correlate` makes of OK. -/
theorem correlateTypes_ok_cases (req rsp : Byte) :
    rsp = 0xFF ∧ correlateTypes .ok req rsp = .zetagErr ∨
      rsp ≠ 0xFF ∧ TypesAgree req rsp ∧ correlateTypes .ok req rsp = .ok ∨
      rsp ≠ 0xFF ∧ ¬TypesAgree req rsp ∧ correlateTypes .ok req rsp = .checksumErr := by
  simp only [correlateTypes, ne_eq, not_true_eq_false, if_false]
  split_ifs with herr hsame hspace
  · exact .inl ⟨herr, rfl⟩
  · exact .inr (.inl ⟨herr, .inl hsame, rfl⟩)
  · exact .inr (.inl ⟨herr, .inr hspace, rfl⟩)
  · exact .inr (.inr ⟨herr, not_or.2 ⟨hsame, hspace⟩, rfl⟩)

/-- R187, of `correlate` itself. -/
theorem correlateTypes_keeps_or_downgrades (st : RxStatus) (req rsp : Byte) :
    correlateTypes st req rsp = st ∨
      st = .ok ∧ (correlateTypes st req rsp = .zetagErr ∨ correlateTypes st req rsp = .checksumErr) := by
  by_cases hst : st = .ok
  · subst hst
    rcases correlateTypes_ok_cases req rsp with ⟨-, e⟩ | ⟨-, -, e⟩ | ⟨-, -, e⟩
    · exact .inr ⟨rfl, .inl e⟩
    · exact .inl e
    · exact .inr ⟨rfl, .inr e⟩
  · exact .inl (correlateTypes_of_ne_ok hst req rsp)

/-! ### The completion step -/

theorem exec_complete (hp : s.phase = .rx) (hs : s.rxState = .terminal) :
    exec .complete s = .next (completeOp s) :=
  if_pos ⟨hp, hs⟩

theorem step_complete (hsched : s.sched = []) (hp : s.phase = .rx) (hs : s.rxState = .terminal) :
    step s = .next (completeOp s) :=
  (step_rx hsched hp hs).trans (exec_complete hp hs)

/-- The completion keeps the status, or it is a RAW's and downgrades OK. -/
theorem completeOp_status_keeps_or_downgrades (s : State) :
    (completeOp s).status = s.status ∨
      s.op = .raw ∧ s.status = .ok ∧
        ((completeOp s).status = .zetagErr ∨ (completeOp s).status = .checksumErr) := by
  rw [completeOp_status]
  split
  · exact (correlateTypes_keeps_or_downgrades s.status s.reqType s.rtype).imp_right (⟨‹_›, ·⟩)
  · exact .inl rfl

end Correlation

/-- Settles O34: of OK, the three cases of `correlateTypes_ok_cases` exclude each other and give three
different statuses. -/
theorem correlateFollowsTheOrderedTests : Obligations.CorrelateFollowsTheOrderedTests := by
  refine fun st req rsp => ⟨fun h => correlateTypes_of_ne_ok h req rsp, ?ok⟩
  rintro rfl
  rcases correlateTypes_ok_cases req rsp with ⟨hff, e⟩ | ⟨hff, hagree, e⟩ | ⟨hff, hdiffer, e⟩ <;> rw [e]
  · exact ⟨iff_of_true rfl hff, iff_of_false nofun fun h => h.1 hff,
      iff_of_false nofun fun h => h.1 hff⟩
  · exact ⟨iff_of_false nofun hff, iff_of_true rfl ⟨hff, hagree⟩,
      iff_of_false nofun fun h => not_or.2 h.2 hagree⟩
  · exact ⟨iff_of_false nofun hff, iff_of_false nofun fun h => hdiffer h.2,
      iff_of_true rfl ⟨hff, not_or.1 hdiffer⟩⟩

/-- Settles O35: the step is `completeOp`, whose status is unchanged or a RAW's downgraded OK
(`completeOp_status_keeps_or_downgrades`). -/
theorem correlationOnlyDowngrades : Obligations.CorrelationOnlyDowngrades := by
  intro s t hsched hp hs h
  rw [step_complete hsched hp hs] at h
  cases h
  rcases completeOp_status_keeps_or_downgrades s with hkept | ⟨hraw, hok, hdown⟩
  · exact ⟨fun _ => hkept, fun _ => hkept, fun hne => absurd hkept hne⟩
  · have hcmd : s.op ≠ .cmd := by simp [hraw]
    exact ⟨fun hne => absurd hok hne, fun hc => absurd hc hcmd, fun _ => ⟨hraw, hok, hdown⟩⟩

/-- Settles O26: the next state of `exec_complete`, `completeOp`, is the one written there. -/
theorem completionEndsTheOperation : Obligations.CompletionEndsTheOperation :=
  fun _ => exec_complete

end Sys2Proof.Machine

/-! PROOF. SIZE_ERR and ZETAG_ERR (60_exceptions.md R235, R236): every move but reset leaves the status
as it is, raises one of DEC's, or is the completion step. -/

namespace Sys2Proof.Machine

section Statuses

variable {s t : State}

/-! ### What the completion step makes of the status -/

theorem completeOp_status_ne_sizeErr (h : s.status ≠ .sizeErr) :
    (completeOp s).status ≠ .sizeErr := by
  rcases completeOp_status_keeps_or_downgrades s with e | ⟨-, -, e | e⟩ <;> rw [e]
  · exact h
  · nofun
  · nofun

/-- R236: the cause is necessary and sufficient. -/
theorem completeOp_status_eq_zetagErr_iff (hne : s.status ≠ .zetagErr) :
    (completeOp s).status = .zetagErr ↔ s.op = .raw ∧ s.status = .ok ∧ s.rtype = 0xFF := by
  have herr : correlateTypes .ok s.reqType s.rtype = .zetagErr ↔ s.rtype = 0xFF :=
    ((correlateFollowsTheOrderedTests .ok s.reqType s.rtype).2 rfl).1
  constructor
  · intro h
    rcases completeOp_status_keeps_or_downgrades s with e | ⟨hraw, hok, -⟩
    · exact absurd (e.symm.trans h) hne
    · rw [completeOp_status, if_pos hraw, hok] at h
      exact ⟨hraw, hok, herr.1 h⟩
  · rintro ⟨hraw, hok, hff⟩
    rw [completeOp_status, if_pos hraw, hok]
    exact herr.2 hff

/-! ### Moves of the status -/

/-- The moves of `status` without reset. The first keeps it and makes no response valid. -/
inductive StatusMove (s t : State) : Prop
  | keeps (status : t.status = s.status) (valid : t.respValid = true → s.respValid = true)
  | raises (dec : decStatus t.status)
  | completes (rx : s.phase = .rx) (terminal : s.rxState = .terminal)
      (status : t.status = (completeOp s).status)

/-- The environment, the agents' lists and the count of free values have no part in a move of
`status`. -/
theorem StatusMove.of_environment {stream : List Byte} {q : List HostItem} {turns : List Turn}
    {ctr : Nat}
    (h : StatusMove { s with rxStream := stream, hostq := q, sched := turns, freeCtr := ctr } t) :
    StatusMove s t := by
  cases h with
  | keeps h1 h2 => exact .keeps h1 h2
  | raises h => exact .raises h
  | completes h1 h2 h3 => exact .completes h1 h2 h3

theorem StatusMove.of_next {u : State} (h : (.next u : Result) = .next t) (hm : StatusMove s u) :
    StatusMove s t := by
  cases h; exact hm

theorem StatusMove.of_read {m : Memory} {i : Nat} (h : StatusMove (readCell m i s).2 t) :
    StatusMove s t := by
  rcases readCell_state m i s with e | e <;> rw [e] at h
  · exact h
  · exact h.of_environment

/-! ### The host's accesses -/

/-- All that an access of the host may write: the operand registers, TXBUF, the values handed over and
the count of free values (10_state.md R42, 20_memory.md R73). -/
def HostAccess (s t : State) : Prop :=
  t = { s with
    txtype := t.txtype
    plen := t.plen
    rawlen := t.rawlen
    txbuf := t.txbuf
    returned := t.returned
    freeCtr := t.freeCtr }

theorem HostAccess.statusMove (h : HostAccess s t) : StatusMove s t := by
  have hstatus := congrArg State.status h
  have hvalid := congrArg State.respValid h
  exact .keeps hstatus hvalid.symm.trans

theorem hostAccess_of_read (m : Memory) (i : Nat) (r : Returned) :
    HostAccess s (giveBack r (readCell m i s).2) := by
  rcases readCell_state m i s with e | e <;> rw [e] <;> rfl

theorem hostAccess_readStat (s : State) : HostAccess s (readStat s) := by
  unfold readStat; split <;> rfl

theorem hostAccess_readResponseByte (v : Byte) (reliable : Bool) (s : State) :
    HostAccess s (readResponseByte v reliable s) := by
  cases reliable <;> rfl

theorem hostAccess_readHreg {n : Nat} (h : readHreg n s = .next t) : HostAccess s t := by
  unfold readHreg at h
  split at h <;> cases h
  case h_2 => exact hostAccess_readStat s
  case h_6 | h_7 | h_8 => exact hostAccess_readResponseByte _ _ s
  case h_1 | h_3 | h_4 | h_5 => rfl

theorem hostAccess_writeHreg {n : Nat} {v : HostWord} (h : writeHreg n v s = .next t) :
    HostAccess s t := by
  unfold writeHreg at h
  split at h <;> cases h <;> rfl

theorem hostAccess_hostWriteTxbuf {i : Nat} {b : Byte} (h : hostWriteTxbuf i b s = .next t) :
    HostAccess s t := by
  obtain ⟨-, h⟩ := ite_eq_next h nofun
  cases h; rfl

theorem hostAccess_hostReadTxbuf {i : Nat} (h : hostReadTxbuf i s = .next t) : HostAccess s t := by
  obtain ⟨-, h⟩ := ite_eq_next h nofun
  cases h; exact hostAccess_of_read _ _ _

theorem hostAccess_hostReadRxbuf {i : Nat} (h : hostReadRxbuf i s = .next t) : HostAccess s t := by
  obtain ⟨-, h⟩ := ite_eq_next h nofun
  split at h <;> cases h
  · exact hostAccess_of_read _ _ _
  · rfl

theorem hostAccess_collectReturn (k : ReturnKind) (s : State) : HostAccess s (collectReturn k s) := by
  unfold collectReturn
  split
  · split <;> rfl
  · rfl

/-! ### Starts -/

theorem statusMove_sendCommand {ty : Byte} {p : List Byte} (h : sendCommand ty p s = .next t) :
    StatusMove s t := by
  obtain ⟨-, rfl⟩ := sendCommand_eq_next.1 h
  exact .keeps rfl nofun

theorem statusMove_sendVerbatim {bytes : List Byte} (h : sendVerbatim bytes s = .next t) :
    StatusMove s t := by
  obtain ⟨-, rfl⟩ := sendVerbatim_eq_next.1 h
  exact .keeps rfl nofun

theorem statusMove_whenIdle {item : HostItem} {act : State → Result}
    (h : whenIdle item act s = .next t) (ha : act s = .next t → StatusMove s t) :
    StatusMove s t := by
  rcases whenIdle_eq_next.1 h with ⟨-, hr⟩ | ⟨-, rfl⟩
  · exact ha hr
  · exact .keeps rfl id

theorem statusMove_sendByCmd {ty : Byte} {p : List Byte} (h : sendByCmd ty p s = .next t) :
    StatusMove s t :=
  statusMove_whenIdle h statusMove_sendCommand

theorem statusMove_sendByRaw {bytes : List Byte} (h : sendByRaw bytes s = .next t) :
    StatusMove s t :=
  statusMove_whenIdle h statusMove_sendVerbatim

theorem statusMove_frameCrosses {via : Via} {ty len : Byte} {rest : List Byte}
    (h : frameCrosses via ty len rest s = .next t) : StatusMove s t := by
  cases via with
  | cmd => exact statusMove_sendByCmd h
  | raw => exact statusMove_sendByRaw h
  | rx => exact .of_next h (.keeps rfl id)

theorem statusMove_commandThenCollect {k : ReturnKind} {ty : Byte} {p : List Byte}
    (h : commandThenCollect k ty p s = .next t) : StatusMove s t :=
  (statusMove_sendCommand (s := post (.collect k) s) h).of_environment

/-! ### The engine's own steps -/

theorem statusMove_txRawByteOp (b : Byte) (s : State) : StatusMove s (txRawByteOp b s) := by
  rcases txRawByteOp_cases b s with ⟨-, e⟩ | ⟨-, e⟩ <;> rw [e] <;> exact .keeps rfl id

theorem statusMove_syncByte (b : Byte) (s : State) : StatusMove s (syncByte b s) := by
  rcases syncByte_cases b s with ⟨-, e⟩ | ⟨-, -, e⟩ | ⟨-, -, e⟩ <;> rw [e]
  · exact .keeps rfl id
  · exact .raises ⟨nofun, nofun⟩
  · exact .keeps rfl id

theorem statusMove_secondPreambleByte (b : Byte) (s : State) :
    StatusMove s (secondPreambleByte b s) := by
  rcases secondPreambleByte_cases b s with ⟨-, e⟩ | ⟨-, e⟩ <;> rw [e]
  · exact .keeps rfl id
  · exact .raises ⟨nofun, nofun⟩

theorem statusMove_lengthByte (b : Byte) (s : State) : StatusMove s (lengthByte b s) := by
  rcases lengthByte_cases b s with ⟨-, e⟩ | ⟨-, e⟩ <;> rw [e]
  · exact .raises ⟨nofun, nofun⟩
  · exact .keeps rfl id

theorem statusMove_payloadByte (b : Byte) (s : State) : StatusMove s (payloadByte b s) := by
  have hvalid : (storeSpanByte b (chkAddOp b s)).respValid = s.respValid := by
    rcases storeSpanByte_cases b (chkAddOp b s) with ⟨-, e⟩ | ⟨-, e⟩ <;> rw [e] <;> rfl
  have hstatus := storeSpanByte_status b (chkAddOp b s)
  rcases payloadByte_cases b s with ⟨-, e⟩ | ⟨-, e⟩ <;> rw [e] <;>
    exact .keeps hstatus hvalid.symm.trans

theorem statusMove_rxStep {st : RxState} {act : Byte → State → State}
    (h : rxStep st act s = .next t) (ha : ∀ b u, StatusMove u (act b u)) : StatusMove s t := by
  obtain ⟨-, -, b, r, -, rfl⟩ := rxStep_eq_next.1 h
  exact (ha b { s with rxStream := r }).of_environment

theorem decStatus_validated (s : State) :
    decStatus (if s.chkAcc = s.rcrc then .ok else .checksumErr) := by
  split <;> exact ⟨nofun, nofun⟩

/-! ### Every instruction, every act of the host, every step -/

theorem statusMove_exec {i : Instr} (h : exec i s = .next t) : StatusMove s t := by
  cases i with
  | nop => exact statusMove_whenIdle h fun hn => .of_next hn (.keeps rfl id)
  | cmd =>
    refine statusMove_whenIdle h fun hc => ?_
    obtain ⟨-, rfl⟩ := startCmd_eq_next.1 hc
    exact .keeps rfl nofun
  | raw =>
    refine statusMove_whenIdle h fun hr => ?_
    obtain ⟨-, rfl⟩ := startRaw_eq_next.1 hr
    exact .keeps rfl nofun
  | opselReserved => cases h
  | frMac | frVersion | frSetTxMode | frTxPower | frRadioParam | frOpMode | frAppData | frChSpaceSet
  | frChSpaceQry | frError | frAny => exact statusMove_frameCrosses h
  | checksum8 | chkLoad | chkAdd | decode | correlate => exact .of_next h (.keeps rfl id)
  | encodeCommand | txCmdPreamble0 | txCmdPreamble1 | txCmdType | txCmdCrc =>
    obtain ⟨-, h⟩ := ite_eq_next h nofun
    exact .of_next h (.keeps rfl id)
  | txCmdLen =>
    obtain ⟨-, h⟩ := ite_eq_next h nofun
    obtain ⟨-, h⟩ := ite_eq_next h nofun
    exact .of_next h (.keeps rfl id)
  | txCmdPayload =>
    obtain ⟨-, h⟩ := ite_eq_next h nofun
    exact .of_next h (.of_read (.keeps rfl id))
  | txRawByte =>
    obtain ⟨-, h⟩ := ite_eq_next h nofun
    exact .of_next h (.of_read (statusMove_txRawByteOp _ _))
  | rxSync => exact statusMove_rxStep h statusMove_syncByte
  | rxSecondPreamble => exact statusMove_rxStep h statusMove_secondPreambleByte
  | rxLength => exact statusMove_rxStep h statusMove_lengthByte
  | rxPayload => exact statusMove_rxStep h statusMove_payloadByte
  | rxCrc => exact statusMove_rxStep h fun _ _ => .keeps rfl id
  | rxValidate =>
    obtain ⟨-, h⟩ := ite_eq_next h nofun
    exact .of_next h (.raises (decStatus_validated s))
  | complete =>
    obtain ⟨⟨hp, hs⟩, h⟩ := ite_eq_next h nofun
    exact .of_next h (.completes hp hs rfl)
  | getProtocolVersion | setOperatingMode | setTxPower | setChannelSpacing | setFrequency
  | setTxMode => exact statusMove_whenIdle h statusMove_commandThenCollect
  | transmitApplicationData bytes =>
    simp only [exec, execTransmitApplicationData] at h
    split at h
    · exact .of_next h (.keeps rfl id)
    · exact statusMove_whenIdle h statusMove_sendCommand

theorem statusMove_runItem {item : HostItem} (h : runItem item s = .next t) : StatusMove s t := by
  rcases runItem_next_cases h with ⟨_, -, h⟩ | ⟨_, _, -, h⟩ | ⟨_, -, h⟩ | ⟨_, -, rfl⟩ |
    ⟨_, _, -, h⟩ | ⟨_, -, h⟩ | ⟨_, _, -, h⟩ | ⟨_, -, h⟩ | ⟨_, -, h⟩ | ⟨_, -, rfl⟩
  · exact statusMove_exec h
  · exact statusMove_sendByCmd h
  · exact statusMove_sendByRaw h
  · exact .keeps rfl id
  · exact (hostAccess_writeHreg h).statusMove
  · exact (hostAccess_readHreg h).statusMove
  · exact (hostAccess_hostWriteTxbuf h).statusMove
  · exact (hostAccess_hostReadTxbuf h).statusMove
  · exact (hostAccess_hostReadRxbuf h).statusMove
  · exact (hostAccess_collectReturn _ s).statusMove

theorem statusMove_engineMove (h : engineMove s = .next t) : StatusMove s t := by
  rcases engineMove_next_cases h with ⟨_, -, h⟩ | ⟨-, -, rfl⟩
  · exact statusMove_exec h
  · exact .keeps rfl id

theorem statusMove_hostMove (h : hostMove s = .next t) : StatusMove s t := by
  rcases hostMove_next_cases h with rfl | ⟨_, _, -, -, h⟩
  · exact .keeps rfl id
  · exact (statusMove_runItem h).of_environment

/-- A step makes a move of `StatusMove` or is a reset. -/
theorem statusMove_step (h : step s = .next t) :
    StatusMove s t ∨ ∃ r, s.sched = .reset :: r ∧ t.respValid = false := by
  rcases step_next_cases h with ⟨b, r, -, rfl⟩ | ⟨r, hr, rfl⟩ | ⟨u, hu, hm⟩
  · exact .inl (.keeps rfl id)
  · exact .inr ⟨r, hr, rfl⟩
  · have hut : StatusMove u t := hm.elim statusMove_engineMove statusMove_hostMove
    rcases hu with ⟨-, rfl⟩ | ⟨_, _, -, rfl⟩
    · exact .inl hut
    · exact .inl hut.of_environment

theorem statusMove_step_unlisted (hsched : s.sched = []) (h : step s = .next t) :
    StatusMove s t := by
  rcases statusMove_step h with hm | ⟨_, hr, -⟩
  · exact hm
  · rw [hsched] at hr; cases hr

end Statuses

/-- Settles O36: DEC raises no SIZE_ERR and the completion step makes none, so a status that was none
stays so; before a step that leaves `resp_valid` 1 the invariants shut SIZE_ERR out. -/
theorem sizeErrIsNeverProduced : Obligations.SizeErrIsNeverProduced := by
  refine ⟨fun s t hsched hne h => ?unlisted, fun s t hi h hv => ?valid⟩
  case unlisted =>
    cases statusMove_step_unlisted hsched h with
    | keeps status => rwa [status]
    | raises dec => exact dec.1
    | completes _ _ status =>
      rw [status]
      exact completeOp_status_ne_sizeErr hne
  case valid =>
    rcases statusMove_step h with hm | ⟨_, -, hinvalid⟩
    · cases hm with
      | keeps status valid =>
        rw [status]
        exact (hi.valid_idle (valid hv)).2
      | raises dec => exact dec.1
      | completes rx terminal status =>
        rw [status]
        exact completeOp_status_ne_sizeErr (hi.dec_status rx terminal).1
    · rw [hv] at hinvalid; cases hinvalid

/-- Settles O37: of the moves of `status` only the completion step can end in ZETAG_ERR, and what it needs
for that is `completeOp_status_eq_zetagErr_iff`. -/
theorem zetagErrHasOneCause : Obligations.ZetagErrHasOneCause := by
  refine fun s t hsched _ h => ⟨fun hne hzetag => ?necessary, fun hp hs hraw hok hff => ?sufficient,
    fun hp hs hcmd => ?command⟩
  case necessary =>
    cases statusMove_step_unlisted hsched h with
    | keeps status => exact absurd (status.symm.trans hzetag) hne
    | raises dec => exact absurd hzetag dec.2
    | completes rx terminal status =>
      exact ⟨rx, terminal, (completeOp_status_eq_zetagErr_iff hne).1 (status.symm.trans hzetag)⟩
  case sufficient =>
    rw [step_complete hsched hp hs] at h
    cases h
    exact ⟨(completeOp_status_eq_zetagErr_iff (by simp [hok])).2 ⟨hraw, hok, hff⟩, rfl, rfl, rfl, rfl⟩
  case command =>
    exact (correlationOnlyDowngrades s t hsched hp hs h).2.1 hcmd

end Sys2Proof.Machine

/-! PROOF. The encodings (30_encoding.md R80, R99, R104): what a code says of the instruction it
belongs to, and that decoder and encoder are inverse to each other on frames and on CTRL words. -/

namespace Sys2Proof

section Encodings

variable {i : Instr} {via : Via} {ty len : Byte} {rest bytes more : List Byte}

/-! ### CTRL words -/

theorem decodeCtrl_of_encode {v : HostWord} (h : encode i = some (.ctrl v)) : decodeCtrl v = i := by
  cases i <;> cases h <;> rfl

/-- OPSEL is all that the encoder keeps of a word. -/
theorem encode_decodeCtrl (v : HostWord) :
    encode (decodeCtrl v) = some (.ctrl (BitVec.ofNat 16 (v.toNat % 4))) := by
  have hcases : v.toNat % 4 = 0 ∨ v.toNat % 4 = 1 ∨ v.toNat % 4 = 2 ∨ v.toNat % 4 = 3 := by omega
  rcases hcases with h | h | h | h <;> simp only [decodeCtrl, h] <;> rfl

/-! ### Frames -/

theorem encode_frameInstr (via : Via) (ty len : Byte) (rest : List Byte) :
    encode (frameInstr via ty len rest) = some (.frame via (frameBytes ty len rest)) := by
  unfold frameInstr
  repeat' split
  all_goals subst_vars
  all_goals rfl

/-- A type without a row of its own is FRAME.ANY's (30_encoding.md R104). -/
theorem frameInstr_of_unregistered (via : Via) (len : Byte) (rest : List Byte)
    (h : Config.registry.contains ty = false) :
    frameInstr via ty len rest = .frAny via ty len rest := by
  have hne : ty ∉ Config.registry := by simpa using h
  simp only [Config.registry, List.mem_cons, List.not_mem_nil, or_false, not_or] at hne
  simp only [frameInstr, hne, if_false]

/-- What the code of a FRAME row says of its term: what it does, and, of a well-formed term, which
it is. -/
structure FrameTerm (i : Instr) (via : Via) (ty len : Byte) (rest : List Byte) : Prop where
  exec_eq : ∀ s, Machine.exec i s = Machine.frameCrosses via ty len rest s
  wf_imp : i.wf = true → frameWf via ty len rest = true ∧ i = frameInstr via ty len rest

theorem frameTerm_of_encode (h : encode i = some (.frame via bytes)) :
    ∃ ty len rest, bytes = frameBytes ty len rest ∧ FrameTerm i via ty len rest := by
  cases i with
  | frAny via' ty len rest =>
    cases h
    refine ⟨ty, len, rest, rfl, fun _ => rfl, fun hw => ?_⟩
    obtain ⟨hreg, hframe⟩ := Bool.and_eq_true_iff.1 hw
    exact ⟨hframe, (frameInstr_of_unregistered via len rest (by simpa using hreg)).symm⟩
  | frMac | frVersion | frSetTxMode | frTxPower | frRadioParam | frOpMode | frAppData | frChSpaceSet
  | frChSpaceQry | frError =>
    cases h
    exact ⟨_, _, _, rfl, fun _ => rfl, fun hw => ⟨hw, rfl⟩⟩
  | _ => cases h

theorem frameWf_length (h : frameWf via ty len rest = true) : rest.length = len.toNat - 1 :=
  beq_iff_eq.1 (Bool.and_eq_true_iff.1 h).1

/-- A frame as long as its LEN announces is read back, and what follows it is left over. -/
theorem decodeFrame_frameBytes (hlen : rest.length = len.toNat - 1) (via : Via) (ty : Byte)
    (more : List Byte) :
    decodeFrame via (frameBytes ty len rest ++ more) = .ok (frameInstr via ty len rest, more) := by
  simp [frameBytes, Machine.frameHeader, decodeFrame, ← hlen]

/-- Everything the decoder reads as a frame. -/
theorem decodeFrame_eq_ok (h : decodeFrame via bytes = .ok (i, more)) :
    ∃ ty len rest, i = frameInstr via ty len rest ∧ bytes = frameBytes ty len rest ++ more := by
  match bytes with
  | p0 :: p1 :: len :: ty :: r =>
    simp only [decodeFrame] at h
    split_ifs at h with h0 h1 hlen
    cases h
    rw [not_not] at h0 h1
    exact ⟨ty, len, r.take (len.toNat - 1), rfl, by simp [frameBytes, Machine.frameHeader, h0, h1]⟩
  | [] | [_] | [_, _] | [_, _, _] => cases h

end Encodings

/-- Settles O2: a code is a CTRL word (`decodeCtrl_of_encode`) or the bytes of a frame, which
`frameTerm_of_encode` takes apart and `decodeFrame_frameBytes` reads back. -/
theorem decodeInvertsEncode : Obligations.DecodeInvertsEncode := by
  intro i c hw he
  cases c with
  | ctrl v => exact ⟨by rw [decode, decodeCtrl_of_encode he], nofun⟩
  | frame via bytes =>
    obtain ⟨ty, len, rest, rfl, hterm⟩ := frameTerm_of_encode he
    obtain ⟨hframe, rfl⟩ := hterm.wf_imp hw
    have hread := decodeFrame_frameBytes (frameWf_length hframe) via ty
    refine ⟨?_, ?_⟩
    · simpa [decode] using hread []
    · rintro _ _ more ⟨⟩
      exact hread more

/-- Settles O3: what the decoder reads as a frame is that frame's bytes (`decodeFrame_eq_ok`), and
of a CTRL word the encoder keeps OPSEL (`encode_decodeCtrl`). -/
theorem encodeInvertsDecode : Obligations.EncodeInvertsDecode := by
  refine ⟨?frame, ?ctrl⟩
  case frame =>
    intro via bytes i more h
    obtain ⟨ty, len, rest, rfl, rfl⟩ := decodeFrame_eq_ok h
    exact ⟨_, encode_frameInstr via ty len rest, rfl⟩
  case ctrl =>
    rintro v i more ⟨⟩
    exact ⟨rfl, encode_decodeCtrl v⟩

/-- Settles O1: the decoder evaluated on each of the words. -/
theorem specWordsDecodeToTheirInstructions : Obligations.SpecWordsDecodeToTheirInstructions :=
  ⟨rfl, rfl, rfl, rfl, rfl, rfl, rfl, rfl, rfl, rfl, rfl, rfl, rfl⟩

end Sys2Proof

/-! PROOF. The choice of the engine's next step (41_encode.md R132, 42_decode.md R150): each STEP
row is selected under its condition, runs then, and answers `notEnabled` otherwise. -/

namespace Sys2Proof.Machine

section StepRows

variable {s : State} {i : Instr}

/-- The column `enabled_when` of opcode_table.json. -/
def State.enables (s : State) : Instr → Prop
  | .txCmdPreamble0 => s.txCmdAt 0
  | .txCmdPreamble1 => s.txCmdAt 1
  | .txCmdLen => s.txCmdAt 2
  | .txCmdType => s.txCmdAt 3
  | .txCmdPayload =>
    s.phase = .tx ∧ s.op = .cmd ∧ 4 ≤ s.txPos.toNat ∧ s.txPos.toNat ≤ s.plen.toNat + 3
  | .txCmdCrc => s.txCmdAt (s.plen.toNat + 4)
  | .txRawByte => s.phase = .tx ∧ s.op = .raw
  | .rxSync => s.phase = .rx ∧ s.rxState = .sync
  | .rxSecondPreamble => s.phase = .rx ∧ s.rxState = .secondPreamble
  | .rxLength => s.phase = .rx ∧ s.rxState = .length
  | .rxPayload => s.phase = .rx ∧ s.rxState = .payload
  | .rxCrc => s.phase = .rx ∧ s.rxState = .crc
  | .rxValidate => s.phase = .rx ∧ s.rxState = .validate
  | .complete => s.phase = .rx ∧ s.rxState = .terminal
  | _ => False

/-! ### Selected is enabled -/

theorem enables_of_engineInstr (h : engineInstr s = some i) : s.enables i := by
  unfold engineInstr at h
  split at h
  · cases h
  · rename_i hp ho
    unfold txCmdInstr at h
    split_ifs at h with h0 h1 h2 h3 hpay hcrc <;> cases h
    · exact ⟨hp, ho, h0⟩
    · exact ⟨hp, ho, h1⟩
    · exact ⟨hp, ho, h2⟩
    · exact ⟨hp, ho, h3⟩
    · exact ⟨hp, ho, by omega, hpay⟩
    · exact ⟨hp, ho, hcrc⟩
  · rename_i hp ho
    cases h; exact ⟨hp, ho⟩
  · rename_i hp
    cases h
    cases hs : s.rxState <;> exact ⟨hp, hs⟩

theorem engineInstr_txCmd (hp : s.phase = .tx) (ho : s.op = .cmd) :
    engineInstr s = txCmdInstr s.plen.toNat s.txPos.toNat := by
  simp only [engineInstr, hp, ho]

theorem engineInstr_rx {st : RxState} (h : s.phase = .rx ∧ s.rxState = st) :
    engineInstr s = some (rxInstr st) := by
  simp only [engineInstr, h]

theorem engineInstr_of_enables (h : s.enables i) : engineInstr s = some i := by
  cases i with
  | txCmdPreamble0 | txCmdPreamble1 | txCmdLen | txCmdType =>
    obtain ⟨hp, ho, hpos⟩ := h
    rw [engineInstr_txCmd hp ho, hpos]; rfl
  | txCmdPayload =>
    obtain ⟨hp, ho, hlow, hhigh⟩ := h
    have hi := txCmdInstr_payload (plen := s.plen.toNat) (i := s.txPos.toNat - 4) (by omega)
    rwa [Nat.sub_add_cancel hlow, ← engineInstr_txCmd hp ho] at hi
  | txCmdCrc =>
    obtain ⟨hp, ho, hpos⟩ := h
    rw [engineInstr_txCmd hp ho, hpos, txCmdInstr_crc]
  | txRawByte => simp only [engineInstr, h.1, h.2]
  | rxSync | rxSecondPreamble | rxLength | rxPayload | rxCrc | rxValidate | complete =>
    exact engineInstr_rx h
  | _ => exact h.elim

/-! ### Not enabled, not run -/

theorem ite_eq_notEnabled_iff {c : Prop} {_ : Decidable c} {r : Result}
    (hr : r ≠ .fault .notEnabled) :
    (if c then r else .fault .notEnabled) = .fault .notEnabled ↔ ¬ c := by
  split
  · exact iff_of_false hr (not_not.2 ‹c›)
  · exact iff_of_true rfl ‹¬ c›

theorem rxStep_eq_notEnabled_iff {st : RxState} {act : Byte → State → State} :
    rxStep st act s = .fault .notEnabled ↔ ¬ (s.phase = .rx ∧ s.rxState = st) := by
  refine ite_eq_notEnabled_iff ?_
  split <;> nofun

theorem exec_eq_notEnabled_iff (hi : isStepRow i) :
    exec i s = .fault .notEnabled ↔ ¬ s.enables i := by
  cases i with
  | txCmdLen =>
    refine ite_eq_notEnabled_iff ?_
    split <;> nofun
  | txCmdPreamble0 | txCmdPreamble1 | txCmdType | txCmdPayload | txCmdCrc | txRawByte | rxValidate
  | complete => exact ite_eq_notEnabled_iff nofun
  | rxSync | rxSecondPreamble | rxLength | rxPayload | rxCrc => exact rxStep_eq_notEnabled_iff
  | _ => exact hi.elim

theorem step_of_enables (hsched : s.sched = []) (h : s.enables i) : step s = exec i s := by
  have hi := engineInstr_of_enables h
  have hbusy : s.phase ≠ .idle := by
    intro hp
    simp only [engineInstr, hp] at hi
    cases hi
  rw [step_unlisted_busy hsched hbusy]
  simp only [engineMove, hi]

end StepRows

/-- Settles O7: a row answers `notEnabled` exactly outside its `enabled_when`, which is what selects
it. -/
theorem internalStepsNeedTheirCondition : Obligations.InternalStepsNeedTheirCondition :=
  fun _ _ hi => (exec_eq_notEnabled_iff hi).trans
    (not_congr ⟨engineInstr_of_enables, enables_of_engineInstr⟩)

/-- Settles O6: each row's `enabled_when` selects it (`step_of_enables`). -/
theorem engineStepRunsSelectedInstruction : Obligations.EngineStepRunsSelectedInstruction := by
  intro s hsched
  have hrun : ∀ {i}, s.enables i → step s = exec i s := step_of_enables hsched
  exact ⟨fun hp ho => ⟨fun h => hrun ⟨hp, ho, h⟩, fun h => hrun ⟨hp, ho, h⟩,
      fun h => hrun ⟨hp, ho, h⟩, fun h => hrun ⟨hp, ho, h⟩,
      fun hlow hhigh => hrun ⟨hp, ho, hlow, hhigh⟩,
      fun h => hrun ⟨hp, ho, h⟩⟩,
    fun hp ho => hrun ⟨hp, ho⟩,
    fun hp => ⟨fun h => hrun ⟨hp, h⟩, fun h => hrun ⟨hp, h⟩, fun h => hrun ⟨hp, h⟩,
      fun h => hrun ⟨hp, h⟩, fun h => hrun ⟨hp, h⟩, fun h => hrun ⟨hp, h⟩, fun h => hrun ⟨hp, h⟩⟩⟩

end Sys2Proof.Machine

/-! PROOF. The engine's move, agent by agent (20_memory.md R67, R68; 10_state.md R40): what DEC may
write, where it waits for a byte (42_decode.md R161), and that a busy engine goes on or waits. -/

namespace Sys2Proof.Machine

section ReceiveMoves

variable {s t u : State}

/-! ### What DEC may write -/

/-- All that a step of DEC may write: its own registers, the response and `rx_stream`. -/
def ReceiveMove (s t : State) : Prop :=
  t = { s with
    rlen := t.rlen
    rtype := t.rtype
    rcrc := t.rcrc
    rxbuf := t.rxbuf
    rxState := t.rxState
    syncCnt := t.syncCnt
    rxIdx := t.rxIdx
    chkAcc := t.chkAcc
    status := t.status
    rxStream := t.rxStream }

theorem ReceiveMove.trans (h : ReceiveMove s t) (h' : ReceiveMove t u) : ReceiveMove s u := by
  unfold ReceiveMove at *
  rw [h', h]

theorem ReceiveMove.txHist (h : ReceiveMove s t) : t.txHist = s.txHist := by
  unfold ReceiveMove at h
  rw [h]

theorem receiveMove_syncByte (b : Byte) (s : State) : ReceiveMove s (syncByte b s) := by
  rcases syncByte_cases b s with ⟨-, e⟩ | ⟨-, -, e⟩ | ⟨-, -, e⟩ <;> rw [e] <;> rfl

theorem receiveMove_secondPreambleByte (b : Byte) (s : State) :
    ReceiveMove s (secondPreambleByte b s) := by
  rcases secondPreambleByte_cases b s with ⟨-, e⟩ | ⟨-, e⟩ <;> rw [e] <;> rfl

theorem receiveMove_lengthByte (b : Byte) (s : State) : ReceiveMove s (lengthByte b s) := by
  rcases lengthByte_cases b s with ⟨-, e⟩ | ⟨-, e⟩ <;> rw [e] <;> rfl

theorem receiveMove_storeSpanByte (b : Byte) (s : State) : ReceiveMove s (storeSpanByte b s) := by
  rcases storeSpanByte_cases b s with ⟨-, e⟩ | ⟨-, e⟩ <;> rw [e] <;> rfl

theorem receiveMove_payloadByte (b : Byte) (s : State) : ReceiveMove s (payloadByte b s) := by
  have hstore : ReceiveMove s (storeSpanByte b (chkAddOp b s)) :=
    .trans (t := chkAddOp b s) rfl (receiveMove_storeSpanByte b _)
  rcases payloadByte_cases b s with ⟨-, e⟩ | ⟨-, e⟩ <;> rw [e] <;> exact hstore.trans rfl

/-! ### The byte-taking rows -/

@[simp] theorem syncByte_rxStream (b : Byte) (s : State) :
    (syncByte b s).rxStream = s.rxStream := by
  rcases syncByte_cases b s with ⟨-, e⟩ | ⟨-, -, e⟩ | ⟨-, -, e⟩ <;> rw [e] <;> rfl

@[simp] theorem secondPreambleByte_rxStream (b : Byte) (s : State) :
    (secondPreambleByte b s).rxStream = s.rxStream := by
  rcases secondPreambleByte_cases b s with ⟨-, e⟩ | ⟨-, e⟩ <;> rw [e] <;> rfl

@[simp] theorem lengthByte_rxStream (b : Byte) (s : State) :
    (lengthByte b s).rxStream = s.rxStream := by
  rcases lengthByte_cases b s with ⟨-, e⟩ | ⟨-, e⟩ <;> rw [e] <;> rfl

@[simp] theorem payloadByte_rxStream (b : Byte) (s : State) :
    (payloadByte b s).rxStream = s.rxStream := by
  rcases payloadByte_cases b s with ⟨-, e⟩ | ⟨-, e⟩ <;> rw [e] <;>
    exact storeSpanByte_rxStream b (chkAddOp b s)

/-- The five states of DEC that take a byte, each by `rxStep` with an act of its own. -/
structure TakesByte (st : RxState) (act : Byte → State → State) : Prop where
  row : ∀ s, exec (rxInstr st) s = rxStep st act s
  move : ∀ b s, ReceiveMove s (act b s)
  stream : ∀ b s, (act b s).rxStream = s.rxStream

theorem TakesByte.taken {st : RxState} {act : Byte → State → State} (h : TakesByte st act)
    (b : Byte) (r : List Byte) (s : State) : ReceiveMove s (act b { s with rxStream := r }) :=
  .trans (t := { s with rxStream := r }) rfl (h.move b _)

theorem takesByte_sync : TakesByte .sync syncByte :=
  ⟨fun _ => rfl, receiveMove_syncByte, syncByte_rxStream⟩

theorem takesByte_secondPreamble : TakesByte .secondPreamble secondPreambleByte :=
  ⟨fun _ => rfl, receiveMove_secondPreambleByte, secondPreambleByte_rxStream⟩

theorem takesByte_length : TakesByte .length lengthByte :=
  ⟨fun _ => rfl, receiveMove_lengthByte, lengthByte_rxStream⟩

theorem takesByte_payload : TakesByte .payload payloadByte :=
  ⟨fun _ => rfl, receiveMove_payloadByte, payloadByte_rxStream⟩

theorem takesByte_crc : TakesByte .crc crcByte := ⟨fun _ => rfl, fun _ _ => rfl, fun _ _ => rfl⟩

theorem exists_takesByte {st : RxState} (hv : st ≠ .validate) (ht : st ≠ .terminal) :
    ∃ act, TakesByte st act := by
  cases st with
  | sync => exact ⟨_, takesByte_sync⟩
  | secondPreamble => exact ⟨_, takesByte_secondPreamble⟩
  | length => exact ⟨_, takesByte_length⟩
  | payload => exact ⟨_, takesByte_payload⟩
  | crc => exact ⟨_, takesByte_crc⟩
  | validate => exact absurd rfl hv
  | terminal => exact absurd rfl ht

/-- 42_decode.md R150: the row of `rx_state` takes a byte, compares, or completes. -/
theorem exec_rxInstr_cases (s : State) :
    (∃ act, TakesByte s.rxState act) ∨
      (s.rxState = .validate ∧ exec (rxInstr s.rxState) s = execRxValidate s) ∨
      (s.rxState = .terminal ∧ exec (rxInstr s.rxState) s = execComplete s) := by
  by_cases hv : s.rxState = .validate
  · exact .inr (.inl ⟨hv, by rw [hv]; rfl⟩)
  · by_cases ht : s.rxState = .terminal
    · exact .inr (.inr ⟨ht, by rw [ht]; rfl⟩)
    · exact .inl (exists_takesByte hv ht)

theorem engineMove_rx (hp : s.phase = .rx) : engineMove s = exec (rxInstr s.rxState) s := by
  simp only [engineMove, engineInstr, hp]

theorem engineMove_idle (hp : s.phase = .idle) : engineMove s = .next s := by
  simp only [engineMove, engineInstr, hp, if_true]

/-! ### The bytes that cross the transport -/

theorem sendsOnly_txCmdByte (b : Byte) (s : State) : SendsOnly b s (txCmdByte b s) :=
  ⟨rfl, rfl, rfl, rfl, rfl, rfl, rfl, rfl⟩

theorem sendsOnly_of_txCmdInstr {i : Instr} {plen pos : Nat} (hi : txCmdInstr plen pos = some i)
    (h : exec i s = .next t) : ∃ b, SendsOnly b s t := by
  rcases txCmdInstr_cases hi with rfl | rfl | rfl | rfl | rfl | rfl <;>
    obtain ⟨-, h⟩ := ite_eq_next h nofun
  · cases h; exact ⟨_, sendsOnly_txCmdByte _ s⟩
  · cases h; exact ⟨_, sendsOnly_txCmdByte _ s⟩
  · obtain ⟨-, h⟩ := ite_eq_next h nofun
    cases h; exact ⟨_, sendsOnly_txCmdByte _ s⟩
  · cases h; exact ⟨_, sendsOnly_txCmdByte s.txtype s⟩
  · cases h; exact ⟨_, (sendsOnly_txCmdByte _ _).of_read (readCell_state _ _ s)⟩
  · cases h; exact ⟨_, sendsOnly_decoderEntry _ s⟩

theorem engineMove_tx_sendsOnly (hp : s.phase = .tx) (h : engineMove s = .next t) :
    ∃ b, SendsOnly b s t := by
  cases ho : s.op with
  | cmd =>
    rcases engineMove_next_cases h with ⟨i, hi, h⟩ | ⟨-, hidle, -⟩
    · exact sendsOnly_of_txCmdInstr ((engineInstr_txCmd hp ho).symm.trans hi) h
    · rw [hp] at hidle; cases hidle
  | raw =>
    rw [engineMove_txRaw hp ho] at h
    obtain ⟨-, h⟩ := ite_eq_next h nofun
    cases h
    exact ⟨_, (sendsOnly_txRawByteOp _ _).of_read (readCell_state _ _ s)⟩

theorem engineMove_rx_stream (hp : s.phase = .rx) (h : engineMove s = .next t) :
    t.txHist = s.txHist ∧ (t.rxStream = s.rxStream ∨ ∃ b, s.rxStream = b :: t.rxStream) := by
  rw [engineMove_rx hp] at h
  rcases exec_rxInstr_cases s with ⟨act, hact⟩ | ⟨-, e⟩ | ⟨-, e⟩
  · rw [hact.row] at h
    obtain ⟨-, -, b, r, he, rfl⟩ := rxStep_eq_next.1 h
    exact ⟨(hact.taken b r s).txHist, .inr ⟨b, by rw [hact.stream, he]⟩⟩
  all_goals
    rw [e] at h
    obtain ⟨-, h⟩ := ite_eq_next h nofun
    cases h
    exact ⟨rfl, .inl rfl⟩

theorem engineMove_rx_safe (hp : s.phase = .rx) : engineSafe (engineMove s) := by
  rw [engineMove_rx hp]
  rcases exec_rxInstr_cases s with ⟨act, hact⟩ | ⟨hs, -⟩ | ⟨hs, -⟩
  · rw [hact.row]
    exact rxStep_enabled hp rfl
  · rw [hs]
    exact .inr ⟨_, exec_rxValidate hp hs⟩
  · rw [hs]
    exact .inr ⟨_, exec_complete hp hs⟩

end ReceiveMoves

/-- Settles O45, by `engineMove_hostSide`. -/
theorem engineNeverWritesOperands : Obligations.EngineNeverWritesOperands := by
  intro s t h
  have hside := engineMove_hostSide h
  exact ⟨congrArg HostSide.txtype hside, congrArg HostSide.plen hside,
    congrArg HostSide.rawlen hside, congrArg HostSide.txbuf hside, congrArg HostSide.hostq hside,
    congrArg HostSide.sched hside, congrArg HostSide.returned hside⟩

/-- Settles O46: a move in TX is `SendsOnly` of one byte, and one in RX takes a byte by `rxStep` or
none. -/
theorem transmitPrecedesReceive : Obligations.TransmitPrecedesReceive := by
  intro s t h
  refine ⟨fun hp => ?idle, fun hp => ?tx, fun hp => engineMove_rx_stream hp h⟩
  case idle =>
    rw [engineMove_idle hp] at h
    cases h; rfl
  case tx =>
    obtain ⟨b, hsent, -, -, -, -, -, -, hstream⟩ := engineMove_tx_sendsOnly hp h
    exact ⟨hstream, b, hsent⟩

/-- Settles O52: a transmit step goes on by the invariants, and a row of DEC is always enabled in
its state. -/
theorem busyEngineGoesOnOrWaits : Obligations.BusyEngineGoesOnOrWaits := by
  intro s hi hsched hbusy
  cases hp : s.phase with
  | idle => exact absurd hp hbusy
  | tx =>
    obtain ⟨t, _, h, -⟩ := step_tx_sendsOnly hi hsched hp
    exact .inr ⟨t, h⟩
  | rx =>
    rw [step_unlisted_busy hsched hbusy]
    exact engineMove_rx_safe hp

/-- Settles O27: in each of these states the row is an `rxStep` (`exists_takesByte`). -/
theorem receiveStepsBlockOnSilence : Obligations.ReceiveStepsBlockOnSilence := by
  intro s hsched hp hv ht
  obtain ⟨act, hact⟩ := exists_takesByte hv ht
  have hstep : step s = rxStep s.rxState act s := (step_rx hsched hp rfl).trans (hact.row s)
  refine ⟨fun he => ?stuck, fun b he => ?delivered, fun he => ?taken⟩
  case stuck => rw [hstep, rxStep_of_empty hp rfl he]
  case delivered =>
    simp only [step, move, deliver, he, List.nil_append, ← hsched]
  case taken =>
    obtain ⟨b, r, he⟩ := List.exists_cons_of_ne_nil he
    exact ⟨_, hstep.trans (rxStep_of_cons hp rfl he), by rw [hact.stream, he]; rfl⟩

end Sys2Proof.Machine

/-! PROOF. A host read hands over one value and changes nothing else (20_memory.md R73), and every
step keeps the invariants of 10_state.md R41: each move runs shared operations, which
Laws/Invariant.lean treats one by one. -/

namespace Sys2Proof.Machine

section HostReads

variable {s t : State}

/-- One value is handed to the host, after some free values have been drawn. -/
def HandsOver (s t : State) : Prop := ∃ r n, t = giveBack r (s.draw n)

theorem handsOver_giveBack (r : Returned) (s : State) : HandsOver s (giveBack r s) := ⟨r, 0, rfl⟩

theorem handsOver_readCell (m : Memory) (i : Nat) (r : Returned) (s : State) :
    HandsOver s (giveBack r (readCell m i s).2) := by
  rcases readCell_state m i s with e | e <;> rw [e]
  · exact handsOver_giveBack r s
  · exact ⟨r, 1, rfl⟩

theorem handsOver_readStat (s : State) : HandsOver s (readStat s) := by
  unfold readStat
  split
  · exact handsOver_giveBack _ s
  · exact ⟨_, 1, rfl⟩

theorem handsOver_readResponseByte (v : Byte) (reliable : Bool) (s : State) :
    HandsOver s (readResponseByte v reliable s) := by
  cases reliable with
  | true => exact handsOver_giveBack _ s
  | false => exact ⟨_, 1, rfl⟩

theorem handsOver_readHreg {n : Nat} (h : readHreg n s = .next t) : HandsOver s t := by
  unfold readHreg at h
  split at h <;> cases h
  case h_2 => exact handsOver_readStat s
  case h_6 | h_7 | h_8 => exact handsOver_readResponseByte _ _ s
  case h_1 | h_3 | h_4 | h_5 => exact handsOver_giveBack _ s

theorem handsOver_hostReadTxbuf {i : Nat} (h : hostReadTxbuf i s = .next t) : HandsOver s t := by
  obtain ⟨-, h⟩ := ite_eq_next h nofun
  cases h; exact handsOver_readCell _ _ _ s

theorem handsOver_hostReadRxbuf {i : Nat} (h : hostReadRxbuf i s = .next t) : HandsOver s t := by
  obtain ⟨-, h⟩ := ite_eq_next h nofun
  split at h <;> cases h
  · exact handsOver_readCell _ _ _ s
  · exact ⟨_, 1, rfl⟩

theorem handsOver_collectReturn (k : ReturnKind) (s : State) : HandsOver s (collectReturn k s) := by
  unfold collectReturn
  split
  · split
    · exact handsOver_giveBack _ s
    · exact ⟨_, 1, rfl⟩
  · exact ⟨_, _, rfl⟩

end HostReads

/-- Settles O44: every read that completes is `HandsOver`. -/
theorem hostReadsHaveNoSideEffects : Obligations.HostReadsHaveNoSideEffects := by
  intro item s t hitem h
  have hread : HandsOver s t := by
    rcases hitem with ⟨n, rfl⟩ | ⟨i, rfl⟩ | ⟨i, rfl⟩ | ⟨k, rfl⟩
    · exact handsOver_readHreg h
    · exact handsOver_hostReadTxbuf h
    · exact handsOver_hostReadRxbuf h
    · cases h; exact handsOver_collectReturn k s
  obtain ⟨r, n, rfl⟩ := hread
  exact ⟨⟨r, rfl⟩, rfl⟩

section InvariantKept

variable {s t : State}

theorem inv_of_next {u : State} (h : (.next u : Result) = .next t) (hu : u.Inv) : t.Inv := by
  cases h; exact hu

theorem HandsOver.inv (h : HandsOver s t) (hi : s.Inv) : t.Inv := by
  obtain ⟨r, n, rfl⟩ := h
  exact inv_environment hi ..

theorem inv_readCell (m : Memory) (i : Nat) (hi : s.Inv) : (readCell m i s).2.Inv := by
  rcases readCell_state m i s with e | e <;> rw [e]
  · exact hi
  · exact inv_environment hi ..

/-! ### The host -/

theorem inv_writeHreg (hi : s.Inv) (hp : s.phase = .idle) {n : Nat} {v : HostWord}
    (h : writeHreg n v s = .next t) : t.Inv := by
  unfold writeHreg at h
  split at h <;> cases h
  case h_4 => exact hi
  case h_1 | h_2 | h_3 => exact inv_operands hi hp hi.txbuf_wf ..

theorem inv_hostWriteTxbuf (hi : s.Inv) (hp : s.phase = .idle) {i : Nat} {b : Byte}
    (h : hostWriteTxbuf i b s = .next t) : t.Inv := by
  obtain ⟨hlt, h⟩ := ite_eq_next h nofun
  exact inv_of_next h (inv_operands hi hp (Memory.wf_writeByte _ hlt b hi.txbuf_wf) ..)

theorem wf_txbuf_writeBytes (hi : s.Inv) {bytes : List Byte} (h : bytes.length ≤ Config.txbufSize) :
    (s.txbuf.writeBytes 0 bytes).wf Config.txbufSize = true :=
  Memory.wf_writeBytes _ bytes 0 (by omega) hi.txbuf_wf

theorem inv_sendCommand {ty : Byte} {p : List Byte} (hi : s.Inv) (hp : s.phase = .idle)
    (h : sendCommand ty p s = .next t) : t.Inv := by
  obtain ⟨hl, rfl⟩ := sendCommand_eq_next.1 h
  have hsize : p.length ≤ Config.txbufSize := hl.trans (by decide)
  have hload : (loadCmd ty p s).Inv := inv_operands hi hp (wf_txbuf_writeBytes hi hsize) ..
  exact inv_cmdStarted hload hp (by rwa [loadCmd_plen, toNat_plen hl])

theorem inv_sendVerbatim {bytes : List Byte} (hi : s.Inv) (hp : s.phase = .idle)
    (h : sendVerbatim bytes s = .next t) : t.Inv := by
  obtain ⟨hl, rfl⟩ := sendVerbatim_eq_next.1 h
  have hload : (loadRaw bytes s).Inv := inv_operands hi hp (wf_txbuf_writeBytes hi hl.2) ..
  exact inv_rawStarted hload hp (by rwa [loadRaw_rawlen, toNat_rawlen hl.2])

/-- An act that waits keeps the invariants; one that runs does so from IDLE. -/
theorem inv_whenIdle (hi : s.Inv) {item : HostItem} {act : State → Result}
    (h : whenIdle item act s = .next t) (ha : s.phase = .idle → act s = .next t → t.Inv) :
    t.Inv := by
  rcases whenIdle_eq_next.1 h with ⟨hp, hr⟩ | ⟨-, rfl⟩
  · exact ha hp hr
  · exact inv_environment hi ..

theorem inv_sendByCmd (hi : s.Inv) {ty : Byte} {p : List Byte} (h : sendByCmd ty p s = .next t) :
    t.Inv := inv_whenIdle hi h (inv_sendCommand hi)

theorem inv_sendByRaw (hi : s.Inv) {bytes : List Byte} (h : sendByRaw bytes s = .next t) : t.Inv :=
  inv_whenIdle hi h (inv_sendVerbatim hi)

theorem inv_frameCrosses (hi : s.Inv) {via : Via} {ty len : Byte} {rest : List Byte}
    (h : frameCrosses via ty len rest s = .next t) : t.Inv := by
  cases via with
  | cmd => exact inv_sendByCmd hi h
  | raw => exact inv_sendByRaw hi h
  | rx => exact inv_of_next h (inv_environment hi ..)

theorem inv_commandThenCollect (hi : s.Inv) {item : HostItem} {k : ReturnKind} {ty : Byte}
    {p : List Byte} (h : whenIdle item (commandThenCollect k ty p) s = .next t) : t.Inv := by
  have hpost : (post (.collect k) s).Inv := inv_environment hi ..
  exact inv_whenIdle hi h fun hp hc => inv_sendCommand hpost hp hc

theorem inv_exec_of_hostCallable {i : Instr} (hc : i.hostCallable = true) (hi : s.Inv)
    (h : exec i s = .next t) : t.Inv := by
  cases i with
  | nop => exact inv_whenIdle hi h fun _ hn => inv_of_next hn hi
  | cmd =>
    refine inv_whenIdle hi h fun hp hs => ?_
    obtain ⟨hl, rfl⟩ := startCmd_eq_next.1 hs
    exact inv_cmdStarted hi hp hl
  | raw =>
    refine inv_whenIdle hi h fun hp hs => ?_
    obtain ⟨hl, rfl⟩ := startRaw_eq_next.1 hs
    exact inv_rawStarted hi hp hl
  | opselReserved => cases h
  | frMac | frVersion | frSetTxMode | frTxPower | frRadioParam | frOpMode | frAppData | frChSpaceSet
  | frChSpaceQry | frError | frAny => exact inv_frameCrosses hi h
  | checksum8 | decode | correlate => exact inv_of_next h (inv_environment hi ..)
  | encodeCommand =>
    obtain ⟨-, h⟩ := ite_eq_next h nofun
    exact inv_of_next h (inv_environment hi ..)
  | getProtocolVersion | setOperatingMode | setTxPower | setChannelSpacing | setFrequency
  | setTxMode => exact inv_commandThenCollect hi h
  | transmitApplicationData bytes =>
    simp only [exec, execTransmitApplicationData] at h
    split at h
    · exact inv_of_next h hi
    · exact inv_whenIdle hi h (inv_sendCommand hi)
  | _ => cases hc

theorem inv_runItem (hi : s.Inv) {item : HostItem}
    (hturn : s.phase = .idle ∨ item.mayProceedBusy = true) (h : runItem item s = .next t) :
    t.Inv := by
  rcases runItem_next_cases h with ⟨_, hc, h⟩ | ⟨_, _, -, h⟩ | ⟨_, -, h⟩ | ⟨_, -, rfl⟩ |
    ⟨_, _, rfl, h⟩ | ⟨_, -, h⟩ | ⟨_, _, rfl, h⟩ | ⟨_, -, h⟩ | ⟨_, -, h⟩ | ⟨_, -, rfl⟩
  · exact inv_exec_of_hostCallable hc hi h
  · exact inv_sendByCmd hi h
  · exact inv_sendByRaw hi h
  · exact inv_environment hi ..
  · exact inv_writeHreg hi (hturn.resolve_right nofun) h
  · exact (handsOver_readHreg h).inv hi
  · exact inv_hostWriteTxbuf hi (hturn.resolve_right nofun) h
  · exact (handsOver_hostReadTxbuf h).inv hi
  · exact (handsOver_hostReadRxbuf h).inv hi
  · exact (handsOver_collectReturn _ s).inv hi

theorem inv_hostMove (hi : s.Inv) (h : hostMove s = .next t) : t.Inv := by
  rcases hostMove_next_cases h with rfl | ⟨item, rest, -, hturn, h⟩
  · exact hi
  · exact inv_runItem (s := { s with hostq := rest }) (inv_environment hi ..) hturn h

/-! ### The engine -/

/-- A transmit step that is not the last one keeps the invariants. -/
theorem inv_transmitByte (hi : s.Inv) (hp : s.phase = .tx) (b : Byte)
    (hc : s.op = .cmd → s.txPos.toNat < s.plen.toNat + 4)
    (hr : s.op = .raw → s.txPos.toNat + 1 ≠ s.rawlen.toNat) : (transmitByte b s).Inv := by
  have hlow : s.txPos.toNat < 258 := by
    cases ho : s.op with
    | cmd =>
      obtain ⟨-, hl⟩ := hi.tx_cmd hp ho
      have hpos := hc ho
      simp only [Config.maxPlen] at hl
      omega
    | raw =>
      obtain ⟨hpos, -, hl⟩ := hi.tx_raw hp ho
      simp only [Config.txbufSize] at hl
      omega
  have hpos : (s.txPos + 1).toNat = s.txPos.toNat + 1 := by bv_omega
  exact inv_environment (inv_transmitted hi hp hpos hc hr _ _) ..

theorem inv_engineMove_txCmd (hi : s.Inv) (hp : s.phase = .tx) (ho : s.op = .cmd)
    (h : engineMove s = .next t) : t.Inv := by
  obtain ⟨hpos, hl⟩ := hi.tx_cmd hp ho
  rcases Nat.lt_or_eq_of_le hpos with hlt | hlast
  · obtain ⟨i, hinstr, hexec⟩ := exec_txCmdInstr hp ho hl rfl hlt
    rw [engineMove_txCmd hp ho hinstr, hexec] at h
    refine inv_of_next h ?_
    rcases cmdByteAt_state s s.txPos.toNat with e | e <;> rw [e]
    · exact inv_transmitByte hi hp _ (fun _ => hlt) (by simp [ho])
    · exact inv_transmitByte (s := s.draw 1) (inv_environment hi ..) hp _ (fun _ => hlt)
        (by simp [ho])
  · have hinstr := txCmdInstr_crc s.plen.toNat
    rw [← hlast] at hinstr
    rw [engineMove_txCmd hp ho hinstr] at h
    obtain ⟨-, h⟩ := ite_eq_next h nofun
    exact inv_of_next h (inv_environment (inv_decoderEntry hi hp s.reqType) ..)

theorem inv_txRawByteOp (hi : s.Inv) (hp : s.phase = .tx) (ho : s.op = .raw) (b : Byte) :
    (txRawByteOp b s).Inv := by
  by_cases hlast : s.txPos.toNat + 1 = s.rawlen.toNat
  · rw [txRawByteOp_last b hlast]
    exact inv_environment (inv_decoderEntry hi hp _) ..
  · rw [txRawByteOp_eq_transmitByte b ho hlast]
    exact inv_transmitByte hi hp b (by simp [ho]) fun _ => hlast

theorem inv_engineMove_txRaw (hi : s.Inv) (hp : s.phase = .tx) (ho : s.op = .raw)
    (h : engineMove s = .next t) : t.Inv := by
  rw [engineMove_txRaw hp ho] at h
  obtain ⟨-, h⟩ := ite_eq_next h nofun
  exact inv_of_next h (inv_txRawByteOp (inv_readCell _ _ hi) (by simp [hp]) (by simp [ho]) _)

theorem inv_rxStep (hi : s.Inv) {st : RxState} {act : Byte → State → State}
    (h : rxStep st act s = .next t)
    (ha : ∀ u : State, u.Inv → u.phase = .rx → u.rxState = st → ∀ b, (act b u).Inv) : t.Inv := by
  obtain ⟨hp, hs, b, r, -, rfl⟩ := rxStep_eq_next.1 h
  exact ha { s with rxStream := r } (inv_environment hi ..) hp hs b

theorem inv_exec_rxInstr (hi : s.Inv) (st : RxState) (h : exec (rxInstr st) s = .next t) :
    t.Inv := by
  cases st with
  | sync => exact inv_rxStep hi h fun _ hu hp _ => inv_syncByte hu hp
  | secondPreamble => exact inv_rxStep hi h fun _ => inv_secondPreambleByte
  | length => exact inv_rxStep hi h fun _ => inv_lengthByte
  | payload => exact inv_rxStep hi h fun _ => inv_payloadByte
  | crc => exact inv_rxStep hi h fun _ => inv_crcByte
  | validate =>
    obtain ⟨⟨hp, hs⟩, h⟩ := ite_eq_next h nofun
    exact inv_of_next h (inv_validated hi hp hs)
  | terminal =>
    obtain ⟨⟨hp, hs⟩, h⟩ := ite_eq_next h nofun
    exact inv_of_next h (inv_completeOp hi hp hs)

theorem inv_engineMove (hi : s.Inv) (h : engineMove s = .next t) : t.Inv := by
  cases hp : s.phase with
  | idle =>
    rw [engineMove_idle hp] at h
    exact inv_of_next h hi
  | tx =>
    cases ho : s.op with
    | cmd => exact inv_engineMove_txCmd hi hp ho h
    | raw => exact inv_engineMove_txRaw hi hp ho h
  | rx =>
    rw [engineMove_rx hp] at h
    exact inv_exec_rxInstr hi s.rxState h

theorem TurnTaken.inv (h : TurnTaken s t) (hi : s.Inv) : t.Inv := by
  rcases h with ⟨-, rfl⟩ | ⟨_, _, -, rfl⟩
  · exact hi
  · exact inv_environment hi ..

end InvariantKept

/-- Settles O51: a delivery touches the environment only, reset establishes the invariants anew, and
each move of engine and host keeps them (`inv_engineMove`, `inv_hostMove`). -/
theorem stepKeepsTheInvariants : Obligations.StepKeepsTheInvariants := by
  intro s t hi h
  rcases step_next_cases h with ⟨b, r, -, rfl⟩ | ⟨r, -, rfl⟩ | ⟨u, hturn, hmove⟩
  · exact inv_environment hi ..
  · exact inv_resetEngine _
  · exact hmove.elim (inv_engineMove (hturn.inv hi)) (inv_hostMove (hturn.inv hi))

/-- Settles O50: reset is IDLE with no valid response, so every clause but those on the empty
buffers and on `sync_cnt` has a false premise. -/
theorem resetStateMeetsTheInvariants : Obligations.ResetStateMeetsTheInvariants := by
  constructor <;> simp [State.reset, State.responseReliable]

end Sys2Proof.Machine

/-! PROOF. DEC step by step is `decode` of the receive stream (42_decode.md R159): `Attempt` is a
run of DEC from a state with some bytes taken, built along the recursion of `decode`; what such a
run leaves is read off from it. -/

namespace Sys2Proof.Machine

section SpanBytes

variable {s : State}

/-! ### Where a span byte goes -/

theorem storeSpanByte_rtype (b : Byte) (s : State) :
    (storeSpanByte b s).rtype = if s.rxIdx = 0 then b else s.rtype := by
  rcases storeSpanByte_cases b s with ⟨h, e⟩ | ⟨h, e⟩ <;> rw [e]
  · rw [if_pos h]
  · rw [if_neg h]

theorem storeSpanByte_readByte (b : Byte) (s : State) (i : Nat) :
    (storeSpanByte b s).rxbuf.readByte i =
      if s.rxIdx ≠ 0 ∧ i = s.rxIdx.toNat - 1 then some b else s.rxbuf.readByte i := by
  rcases storeSpanByte_cases b s with ⟨h, e⟩ | ⟨h, e⟩ <;> rw [e]
  · simp [h]
  · simp only [Memory.readByte_writeByte, ne_eq, h, not_false_eq_true, true_and]

/-- All that a PAYLOAD step writes beside the stream. -/
theorem payloadByte_eq (b : Byte) (s : State) :
    payloadByte b s = { s with
      chkAcc := s.chkAcc + b
      rtype := (storeSpanByte b (chkAddOp b s)).rtype
      rxbuf := (storeSpanByte b (chkAddOp b s)).rxbuf
      rxIdx := (payloadByte b s).rxIdx
      rxState := (payloadByte b s).rxState } := by
  rcases payloadByte_cases b s with ⟨-, e⟩ | ⟨-, e⟩ <;>
    rcases storeSpanByte_cases b (chkAddOp b s) with ⟨-, e'⟩ | ⟨-, e'⟩ <;> rw [e, e'] <;> rfl

@[simp] theorem storeSpanByte_rlen (b : Byte) (s : State) :
    (storeSpanByte b s).rlen = s.rlen := by
  rcases storeSpanByte_cases b s with ⟨-, e⟩ | ⟨-, e⟩ <;> rw [e]

@[simp] theorem storeSpanByte_rxIdx (b : Byte) (s : State) :
    (storeSpanByte b s).rxIdx = s.rxIdx := by
  rcases storeSpanByte_cases b s with ⟨-, e⟩ | ⟨-, e⟩ <;> rw [e]

/-- Before the last span byte `rx_idx` counts without wrapping. -/
theorem toNat_rxIdx_succ {idx len : BitVec 8} (h : idx.toNat + 1 < len.toNat) :
    (idx + 1).toNat = idx.toNat + 1 := by
  bv_omega

end SpanBytes

/-- Settles O24: where the byte goes is `storeSpanByte`'s, and `payloadByte_cases` is the test for
the last one. -/
theorem payloadCollectsTheSpan : Obligations.PayloadCollectsTheSpan := by
  intro s b r hp hs he hidx
  have htake : exec .rxPayload s = .next (payloadByte b { s with rxStream := r }) :=
    rxStep_of_cons hp hs he
  rw [htake, payloadByte_eq]
  refine ⟨_, _, _, _, storeSpanByte_rtype b (chkAddOp b { s with rxStream := r }),
    storeSpanByte_readByte b (chkAddOp b { s with rxStream := r }), ?last, ?more, rfl⟩
  all_goals
    intro h
    rcases payloadByte_cases b { s with rxStream := r } with ⟨hlast, e⟩ | ⟨hmore, e⟩ <;> rw [e]
  case last.inl => exact ⟨storeSpanByte_rxIdx b _, rfl⟩
  case last.inr => exact absurd (show s.rxIdx.toNat + 2 = s.rlen.toNat by omega) hmore
  case more.inl =>
    change s.rxIdx.toNat + 2 = s.rlen.toNat at hlast
    omega
  case more.inr => exact ⟨toNat_rxIdx_succ hidx, (storeSpanByte_rxState b _).trans hs⟩

section Attempts

variable {s t u : State} {k k' : Nat} {st : RxStatus} {f : Option RspFields} {r : DecodeResult}

/-! ### How an attempt goes on and ends -/

/-- The fields stand in the response registers and RXBUF, with a right checksum. -/
structure FieldsHeld (s : State) (fields : RspFields) : Prop where
  len : s.rlen = fields.len
  ty : s.rtype = fields.ty
  crc : s.rcrc = fields.crc
  length : fields.payload.length + 2 = fields.len.toNat
  payload : s.rxbuf.Holds fields.payload
  checksum : s.chkAcc = s.rcrc

/-- DEC is over, with this status and these fields. -/
structure DecEnded (s : State) (st : RxStatus) (f : Option RspFields) : Prop where
  rx : s.phase = .rx
  terminal : s.rxState = .terminal
  status : s.status = st
  failed : f = none → st = .timeout ∨ st = .formatErr ∨ st = .checksumErr ∧ s.chkAcc ≠ s.rcrc
  held : ∀ fields, f = some fields → st = .ok ∧ FieldsHeld s fields

/-- From `s`, with `k` bytes taken before, DEC runs and answers `r`: it takes one byte a step until
it is over, at once or by a comparison that takes none, or waits for a byte. -/
inductive Attempt : State → Nat → DecodeResult → Prop
  | ended {s t : State} {k n : Nat} {st : RxStatus} {f : Option RspFields}
      (hrun : runSteps n s = .next t) (hmove : ReceiveMove s t)
      (hstream : t.rxStream = s.rxStream) (hends : DecEnded t st f) :
      Attempt s k (.done st k f)
  | waits {s : State} {k : Nat} (hp : s.phase = .rx) (he : s.rxStream = [])
      (hstuck : step s = .fault .stuck) : Attempt s k (.blocked k)
  | takes {s u : State} {k : Nat} {r : DecodeResult} {b : Byte} (hstep : step s = .next u)
      (hmove : ReceiveMove s u) (hstream : s.rxStream = b :: u.rxStream)
      (hrest : Attempt u (k + 1) r) :
      Attempt s k r

theorem Attempt.done (h : Attempt s k r) (hr : r = .done st k' f) :
    ∃ n t d, k' = k + d ∧ d ≤ s.rxStream.length ∧ runSteps n s = .next t ∧ ReceiveMove s t ∧
      t.rxStream = s.rxStream.drop d ∧ DecEnded t st f := by
  induction h with
  | ended hrun hmove hstream hends =>
    cases hr
    exact ⟨_, _, 0, rfl, Nat.zero_le _, hrun, hmove, hstream, hends⟩
  | waits => cases hr
  | takes hstep hmove hstream _ ih =>
    obtain ⟨n, t, d, hk, hd, hrun, hmove', hstream', hends⟩ := ih hr
    refine ⟨n + 1, t, d + 1, by omega, ?_, (runSteps_succ hstep).trans hrun, hmove.trans hmove', ?_,
      hends⟩
    · rw [hstream]; exact Nat.succ_le_succ hd
    · rw [hstream]; exact hstream'

theorem Attempt.blocked (h : Attempt s k r) (hr : r = .blocked k') :
    k' = k + s.rxStream.length ∧ ∃ t, runSteps s.rxStream.length s = .next t ∧ ReceiveMove s t ∧
      t.phase = .rx ∧ t.rxStream = [] ∧ step t = .fault .stuck := by
  induction h with
  | ended => cases hr
  | @waits s _ hp he hstuck =>
    cases hr
    rw [he]
    exact ⟨rfl, s, rfl, rfl, hp, he, hstuck⟩
  | takes hstep hmove hstream _ ih =>
    obtain ⟨hk, t, hrun, hmove', hp, he, hstuck⟩ := ih hr
    rw [hstream, List.length_cons]
    exact ⟨by omega, t, (runSteps_succ hstep).trans hrun, hmove.trans hmove', hp, he, hstuck⟩

/-! ### One step of an attempt -/

/-- DEC stands in `st`, and no turn is listed. -/
structure State.Decodes (s : State) (st : RxState) : Prop where
  unlisted : s.sched = []
  rx : s.phase = .rx
  state : s.rxState = st

theorem ReceiveMove.decodes {st st' : RxState} (h : ReceiveMove s t) (hd : s.Decodes st)
    (ht : t.rxState = st') : t.Decodes st' := by
  unfold ReceiveMove at h
  rw [h] at ht ⊢
  exact ⟨hd.unlisted, hd.rx, ht⟩

theorem step_takesByte {st : RxState} {act : Byte → State → State} (hact : TakesByte st act)
    (hd : s.Decodes st) : step s = rxStep st act s :=
  (step_rx hd.unlisted hd.rx hd.state).trans (hact.row s)

theorem attempt_waits {st : RxState} {act : Byte → State → State} (hact : TakesByte st act)
    (hd : s.Decodes st) (he : s.rxStream = []) : Attempt s k (.blocked k) :=
  .waits hd.rx he ((step_takesByte hact hd).trans (rxStep_of_empty hd.rx hd.state he))

theorem attempt_takes {st : RxState} {act : Byte → State → State} (hact : TakesByte st act)
    (hd : s.Decodes st) {b : Byte} {rest : List Byte} (he : s.rxStream = b :: rest)
    (hrest : Attempt (act b { s with rxStream := rest }) (k + 1) r) : Attempt s k r :=
  .takes ((step_takesByte hact hd).trans (rxStep_of_cons hd.rx hd.state he)) (hact.taken b rest s)
    (by rw [hact.stream]; exact he) hrest

/-- A byte-taking state that ends the attempt with a failure of its own. -/
theorem attempt_raised (hp : s.phase = .rx) (hst : st = .timeout ∨ st = .formatErr) :
    Attempt (raiseStatus st s) k (.done st k none) :=
  .ended (n := 0) rfl rfl rfl ⟨hp, rfl, rfl, fun _ => hst.imp_right .inl, nofun⟩

/-! ### The span -/

/-- The span bytes `acc` (TYPE first) have been taken and stand in RTYPE and RXBUF, and `chk_acc` is
the checksum of the frame bytes so far. -/
structure Collected (acc : List Byte) (s : State) : Prop where
  ty : ∀ b ∈ acc.head?, s.rtype = b
  payload : s.rxbuf.Holds acc.tail
  checksum : s.chkAcc = checksum8 (Config.preamble0 :: Config.preamble1 :: s.rlen :: acc)

theorem Collected.snoc {acc : List Byte} (h : Collected acc s)
    (hidx : s.rxIdx.toNat = acc.length) (b : Byte) :
    Collected (acc ++ [b]) (storeSpanByte b (chkAddOp b s)) := by
  have hacc : s.chkAcc + b =
      checksum8 (Config.preamble0 :: Config.preamble1 :: s.rlen :: (acc ++ [b])) := by
    rw [h.checksum, ← checksum8_snoc]; rfl
  rcases storeSpanByte_cases b (chkAddOp b s) with ⟨h0, e⟩ | ⟨h0, e⟩ <;> rw [e]
  · obtain rfl : acc = [] :=
      List.eq_nil_of_length_eq_zero (hidx.symm.trans (congrArg BitVec.toNat h0))
    exact ⟨fun c hc => Option.some.inj hc, Memory.holds_nil _, hacc⟩
  · cases acc with
    | nil => exact absurd (BitVec.eq_of_toNat_eq hidx) h0
    | cons ty p =>
      have hp : (chkAddOp b s).rxIdx.toNat - 1 = p.length := by simp [hidx]
      refine ⟨h.ty, ?_, hacc⟩
      simp only [hp]
      exact Memory.holds_snoc _ h.payload b

/-- 42_decode.md R159 on a span `acc` of the length LEN announces and a CRC byte. -/
theorem decodeSpan_of_span {acc : List Byte} {len : Byte} (hlen : acc.length + 1 = len.toNat)
    (k : Nat) (crc : Byte) (more : List Byte) :
    decodeSpan len k (acc ++ crc :: more) =
      if checksum8 (Config.preamble0 :: Config.preamble1 :: len :: acc) = crc then
        .done .ok (k + acc.length + 1) (some ⟨len, acc.headD 0, acc.tail, crc⟩)
      else .done .checksumErr (k + acc.length + 1) none := by
  have hlong : ¬ (acc ++ crc :: more).length < acc.length + 1 := by
    rw [List.length_append, List.length_cons]; omega
  simp only [decodeSpan, ← hlen, if_neg hlong, Nat.add_sub_cancel, List.take_left, List.drop_left]
  rfl

theorem attempt_validate {acc : List Byte} (hd : s.Decodes .validate) (hc : Collected acc s)
    (hlen : acc.length + 1 = s.rlen.toNat) (hne : acc ≠ []) :
    Attempt s k (if s.chkAcc = s.rcrc then
        .done .ok k (some ⟨s.rlen, acc.headD 0, acc.tail, s.rcrc⟩)
      else .done .checksumErr k none) := by
  have hstep := (step_rx hd.unlisted hd.rx hd.state).trans (exec_rxValidate hd.rx hd.state)
  have hrun := (runSteps_succ (n := 0) hstep).trans (runSteps_zero _)
  obtain ⟨ty, p, rfl⟩ := List.exists_cons_of_ne_nil hne
  split
  · rename_i hok
    rw [if_pos hok] at hrun
    refine .ended hrun rfl rfl ⟨hd.rx, rfl, rfl, nofun, ?_⟩
    rintro _ ⟨⟩
    exact ⟨rfl, rfl, hc.ty ty rfl, rfl, hlen, hc.payload, hok⟩
  · rename_i hbad
    rw [if_neg hbad] at hrun
    exact .ended hrun rfl rfl ⟨hd.rx, rfl, rfl, fun _ => .inr (.inr ⟨rfl, hbad⟩), nofun⟩

/-- 42_decode.md R155, R156: the span is complete. -/
theorem attempt_crc {acc stream : List Byte} {len : Byte} (he : s.rxStream = stream)
    (hrlen : s.rlen = len) (hd : s.Decodes .crc) (hc : Collected acc s)
    (hlen : acc.length + 1 = len.toNat) (hne : acc ≠ []) :
    Attempt s (k + acc.length) (decodeSpan len k (acc ++ stream)) := by
  subst hrlen
  cases stream with
  | nil =>
    have hshort : acc.length < s.rlen.toNat := by omega
    simp only [List.append_nil, decodeSpan, if_pos hshort]
    exact attempt_waits takesByte_crc hd he
  | cons crc more =>
    refine attempt_takes takesByte_crc hd he ?_
    rw [decodeSpan_of_span hlen, ← hc.checksum]
    exact attempt_validate (s := crcByte crc { s with rxStream := more }) ⟨hd.unlisted, hd.rx, rfl⟩
      ⟨hc.ty, hc.payload, hc.checksum⟩ hlen hne

/-- 42_decode.md R154: the byte is collected, and the state is left with the last byte of the span.
-/
theorem payloadByte_collects {acc : List Byte} (hs : s.rxState = .payload) (hc : Collected acc s)
    (hidx : s.rxIdx.toNat = acc.length) (hlen : acc.length + 1 < s.rlen.toNat) (b : Byte) :
    Collected (acc ++ [b]) (payloadByte b s) ∧ (payloadByte b s).rlen = s.rlen ∧
      (acc.length + 2 = s.rlen.toNat ∧ (payloadByte b s).rxState = .crc ∨
        acc.length + 2 < s.rlen.toNat ∧ (payloadByte b s).rxState = .payload ∧
          (payloadByte b s).rxIdx.toNat = acc.length + 1) := by
  obtain ⟨hty, hpayload, hsum⟩ := hc.snoc hidx b
  have hrlen : (storeSpanByte b (chkAddOp b s)).rlen = s.rlen := storeSpanByte_rlen b _
  rcases payloadByte_cases b s with ⟨hlast, e⟩ | ⟨hmore, e⟩ <;> rw [e]
  · rw [hidx] at hlast
    exact ⟨⟨hty, hpayload, hsum⟩, hrlen, .inl ⟨hlast, rfl⟩⟩
  · rw [hidx] at hmore
    have hnext : (s.rxIdx + 1).toNat = acc.length + 1 :=
      (toNat_rxIdx_succ (hidx ▸ hlen)).trans (congrArg (· + 1) hidx)
    exact ⟨⟨hty, hpayload, hsum⟩, hrlen,
      .inr ⟨by omega, (storeSpanByte_rxState b _).trans hs, hnext⟩⟩

/-- 42_decode.md R154: byte by byte, until the span has `LEN - 1` bytes. -/
theorem attempt_payload {acc stream : List Byte} {len : Byte} (he : s.rxStream = stream)
    (hrlen : s.rlen = len) (hd : s.Decodes .payload) (hc : Collected acc s)
    (hidx : s.rxIdx.toNat = acc.length) (hlen : acc.length + 1 < len.toNat) :
    Attempt s (k + acc.length) (decodeSpan len k (acc ++ stream)) := by
  induction stream generalizing s acc with
  | nil =>
    have hshort : acc.length < len.toNat := by omega
    simp only [List.append_nil, decodeSpan, if_pos hshort]
    exact attempt_waits takesByte_payload hd he
  | cons b rest ih =>
    subst hrlen
    obtain ⟨hc', hrlen, hnext⟩ := payloadByte_collects (s := { s with rxStream := rest }) hd.state
      ⟨hc.ty, hc.payload, hc.checksum⟩ hidx hlen b
    have hmove := takesByte_payload.taken b rest s
    have hstream := payloadByte_rxStream b { s with rxStream := rest }
    have hacc : (acc ++ [b]).length = acc.length + 1 := List.length_append
    refine attempt_takes takesByte_payload hd he ?_
    rw [List.append_cons, Nat.add_assoc, ← hacc]
    rcases hnext with ⟨hlast, hst⟩ | ⟨hmore, hst, hidx'⟩
    · exact attempt_crc hstream hrlen (hmove.decodes hd hst) hc' (hacc ▸ hlast) (by simp)
    · exact ih hstream hrlen (hmove.decodes hd hst) hc' (hidx'.trans hacc.symm) (hacc ▸ hmore)

/-! ### The header -/

/-- 42_decode.md R153. -/
theorem attempt_length {stream : List Byte} (he : s.rxStream = stream) (hd : s.Decodes .length)
    (hchk : s.chkAcc = checksum8 [Config.preamble0, Config.preamble1]) :
    Attempt s k (decodeLength k stream) := by
  cases stream with
  | nil => exact attempt_waits takesByte_length hd he
  | cons len rest =>
    refine attempt_takes takesByte_length hd he ?_
    rw [decodeLength]
    rcases lengthByte_cases len { s with rxStream := rest } with ⟨hlen, e⟩ | ⟨hlen, e⟩ <;> rw [e]
    · rw [if_pos hlen]
      exact attempt_raised hd.rx (.inr rfl)
    · rw [if_neg (Nat.not_lt.2 hlen)]
      have hsum : s.chkAcc + len = checksum8 [Config.preamble0, Config.preamble1, len] := by
        rw [hchk, ← checksum8_snoc]; rfl
      exact attempt_payload (acc := []) rfl rfl ⟨hd.unlisted, hd.rx, rfl⟩
        ⟨nofun, Memory.holds_nil _, hsum⟩ rfl hlen

/-- 42_decode.md R152. -/
theorem attempt_secondPreamble {stream : List Byte} (he : s.rxStream = stream)
    (hd : s.Decodes .secondPreamble) (hchk : s.chkAcc = Config.preamble0) :
    Attempt s k (decodeSecond k stream) := by
  cases stream with
  | nil => exact attempt_waits takesByte_secondPreamble hd he
  | cons b rest =>
    refine attempt_takes takesByte_secondPreamble hd he ?_
    rw [decodeSecond]
    rcases secondPreambleByte_cases b { s with rxStream := rest } with ⟨hb, e⟩ | ⟨hb, e⟩ <;> rw [e]
    · rw [if_pos hb]
      exact attempt_length rfl ⟨hd.unlisted, hd.rx, rfl⟩ (congrArg (· + Config.preamble1) hchk)
    · rw [if_neg hb]
      exact attempt_raised hd.rx (.inr rfl)

/-- 42_decode.md R151: `decode` counts in `cnt` what DEC counts in `sync_cnt`. -/
theorem attempt_sync {stream : List Byte} {cnt : Nat} (he : s.rxStream = stream)
    (hd : s.Decodes .sync) (hcnt : s.syncCnt.toNat = cnt) :
    Attempt s k (decodeSync cnt k stream) := by
  induction stream generalizing s cnt k with
  | nil => exact attempt_waits takesByte_sync hd he
  | cons b rest ih =>
    refine attempt_takes takesByte_sync hd he ?_
    rw [decodeSync]
    rcases syncByte_cases b { s with rxStream := rest } with
      ⟨hb, e⟩ | ⟨hb, hc, e⟩ | ⟨hb, hc, e⟩ <;> rw [e]
    · rw [if_pos hb]
      exact attempt_secondPreamble rfl ⟨hd.unlisted, hd.rx, rfl⟩ rfl
    · rw [if_neg hb, if_pos (hcnt ▸ hc)]
      exact attempt_raised hd.rx (.inl rfl)
    · have hlt : s.syncCnt.toNat < 15 := Nat.lt_of_le_of_ne (Nat.le_of_lt_succ s.syncCnt.isLt) hc
      rw [if_neg hb, if_neg (hcnt ▸ hc)]
      exact ih rfl ⟨hd.unlisted, hd.rx, hd.state⟩
        ((toNat_syncCnt_succ hlt).trans (congrArg (· + 1) hcnt))

/-- From decoder entry DEC runs as `decode` of the stream. -/
theorem attempt_decodeStream (hd : s.Decodes .sync) (hcnt : s.syncCnt = 0) :
    Attempt s 0 (decodeStream s.rxStream) :=
  attempt_sync rfl hd (congrArg BitVec.toNat hcnt)

theorem ReceiveMove.attemptKeeps (h : ReceiveMove s t) : attemptKeeps s t := by
  unfold ReceiveMove at h
  rw [h]
  exact ⟨rfl, rfl, rfl, rfl, rfl, rfl, rfl, rfl, rfl, rfl, rfl⟩

end Attempts

/-- Settles O29: DEC runs as `decode` (`attempt_decodeStream`), and what an `Attempt` leaves is
`Attempt.done` or `Attempt.blocked`. -/
theorem decoderRunsAsDecode : Obligations.DecoderRunsAsDecode := by
  intro s hsched hp hs hcnt
  have hattempt := attempt_decodeStream ⟨hsched, hp, hs⟩ hcnt
  refine ⟨fun st k f hdec => ?done, fun k hdec => ?blocked⟩
  case done =>
    obtain ⟨n, t, d, rfl, hd, hrun, hmove, hstream, hends⟩ := hattempt.done hdec
    rw [Nat.zero_add]
    refine ⟨n, t, hrun, ⟨hends.rx, hends.terminal, hends.status, hd, hstream, ?_⟩,
      hmove.attemptKeeps⟩
    intro fields hf
    obtain ⟨-, hheld⟩ := hends.held fields hf
    exact ⟨hheld.len, hheld.ty, hheld.crc, hheld.length, hheld.payload⟩
  case blocked =>
    obtain ⟨hk, t, hrun, hmove, hp, he, hstuck⟩ := hattempt.blocked hdec
    rw [Nat.zero_add] at hk
    exact ⟨hk, t, hk ▸ hrun, hp, he, hmove.attemptKeeps, hstuck⟩

/-- Settles O33: both ends are a `TailEnds` after the `0xFF`, and nothing beyond the bytes of an
attempt matters (`decodeStream_of_attemptEnds`). -/
theorem noResynchronisationWithinAnAttempt : Obligations.NoResynchronisationWithinAnAttempt := by
  intro junk hlen hjunk
  have hends : ∀ {tail}, TailEnds tail .formatErr none → ∀ more,
      decodeStream (junk ++ 0xFF :: (tail ++ more)) =
        .done .formatErr (junk.length + (tail.length + 1)) none := by
    intro tail htail more
    have hdecode := decodeStream_of_attemptEnds (.preamble hjunk (by omega) htail) more
    rwa [List.append_assoc, List.length_append, List.length_cons] at hdecode
  exact ⟨fun _ more hb => hends (.noise hb) more, fun _ more hl => hends (.shortLen hl) more⟩

end Sys2Proof.Machine

/-! PROOF. Whole operations (43_dispatch_correlate.md R189): the start, the transmit phase and the
attempt of DEC, one after the other, and what the completion step makes of the response. -/

namespace Sys2Proof.Machine

section Operations

variable {s t v : State} {st : RxStatus} {f : Option RspFields} {q : List HostItem}

/-! ### The response at the completion -/

theorem completeOp_status_of_cmd (h : t.op = .cmd) : (completeOp t).status = t.status :=
  if_neg (by simp [h])

/-- The completion step keeps the fields readable exactly where `decode` gives them
(43_dispatch_correlate.md R188), whatever COR makes of the status. -/
theorem completeOp_response (h : DecEnded t st f) :
    (completeOp t).response = ⟨(completeOp t).status, f⟩ := by
  cases f with
  | none =>
    have hne : t.status ≠ .ok := by
      rcases h.failed rfl with e | e | ⟨e, -⟩ <;> simp [h.status, e]
    have hstatus : (completeOp t).status = st := by
      rcases completeOp_status_keeps_or_downgrades t with e | ⟨-, hok, -⟩
      · exact e.trans h.status
      · exact absurd hok hne
    have hunreliable : ¬ (completeOp t).responseReliable = true := by
      rw [responseReliable_iff, hstatus]
      rcases h.failed rfl with e | e | ⟨e, hsum⟩ <;> simp [e]
      exact hsum
    simp only [State.response, if_neg hunreliable]
  | some fields =>
    obtain ⟨rfl, hheld⟩ := h.held fields rfl
    have hreliable : (completeOp t).responseReliable = true := by
      refine (responseReliable_iff _).2 ⟨rfl, ?_⟩
      rcases completeOp_status_keeps_or_downgrades t with e | ⟨-, -, e | e⟩
      · exact .inl (e.trans h.status)
      · exact .inr (.inl e)
      · exact .inr (.inr ⟨e, hheld.checksum⟩)
    have hpayload : (completeOp t).responsePayload = fields.payload :=
      responsePayload_of_holds (hheld.length.trans (congrArg BitVec.toNat hheld.len.symm))
        hheld.payload
    simp only [State.response, if_pos hreliable, hpayload, completeOp_rlen, completeOp_rtype,
      completeOp_rcrc, hheld.len, hheld.ty, hheld.crc]

/-! ### From decoder entry to the end of the operation -/

theorem operation_completes {n k : Nat} (hrun : runSteps n s = .next v) (hd : v.Decodes .sync)
    (hcnt : v.syncCnt = 0) (hdec : decodeStream v.rxStream = .done st k f) :
    ∃ n t, runSteps n s = .next (completeOp t) ∧ DecEnded t st f ∧ attemptKeeps v t ∧
      t.rxStream = v.rxStream.drop k := by
  obtain ⟨m, t, d, rfl, -, hrun', hmove, hstream, hends⟩ := (attempt_decodeStream hd hcnt).done hdec
  have hdt := hmove.decodes hd hends.terminal
  have hlast := runSteps_succ (n := 0) (step_complete hdt.unlisted hdt.rx hdt.state)
  rw [Nat.zero_add]
  exact ⟨n + (m + 1), t, by rw [runSteps_add hrun, runSteps_add hrun', hlast, runSteps_zero], hends,
    hmove.attemptKeeps, hstream⟩

theorem operation_waits {n k : Nat} (hrun : runSteps n s = .next v) (hd : v.Decodes .sync)
    (hcnt : v.syncCnt = 0) (hdec : decodeStream v.rxStream = .blocked k) :
    ∃ n t, runSteps n s = .next t ∧ t.phase = .rx ∧ t.respValid = v.respValid ∧ t.rxStream = [] ∧
      t.txHist = v.txHist ∧ step t = .fault .stuck := by
  obtain ⟨-, t, hrun', hmove, hp, he, hstuck⟩ := (attempt_decodeStream hd hcnt).blocked hdec
  obtain ⟨-, -, -, -, htxHist, -, -, hvalid, -⟩ := hmove.attemptKeeps
  exact ⟨n + v.rxStream.length, t, (runSteps_add hrun).trans hrun', hp, hvalid, he, htxHist, hstuck⟩

/-! ### From the write of CTRL to decoder entry -/

theorem step_hostAct {item : HostItem} (hs : s.sched = []) (hp : s.phase = .idle)
    (hq : s.hostq = item :: q) : step s = runItem item { s with hostq := q } :=
  (step_unlisted_idle hs hp).trans (hostMove_runs hq (.inl hp))

theorem step_ctrlCmd (hs : s.sched = []) (hp : s.phase = .idle) (hq : s.hostq = .write 0 1 :: q)
    (hl : s.plen.toNat ≤ 253) : step s = .next (cmdStarted { s with hostq := q }) :=
  (step_hostAct hs hp hq).trans
    ((exec_cmd_of_idle (s := { s with hostq := q }) hp).trans (if_pos hl))

theorem step_ctrlRaw (hs : s.sched = []) (hp : s.phase = .idle) (hq : s.hostq = .write 0 2 :: q)
    (hl : 4 ≤ s.rawlen.toNat ∧ s.rawlen.toNat ≤ 258) :
    step s = .next (rawStarted { s with hostq := q }) :=
  (step_hostAct hs hp hq).trans
    ((exec_raw_of_idle (s := { s with hostq := q }) hp).trans (if_pos hl))

end Operations

/-- Settles O59: the start step, `runSteps_cmd` and the attempt of DEC. -/
theorem cmdOperationIsItsFunction : Obligations.CmdOperationIsItsFunction := by
  intro s p q hs hp hq hmax hl hh
  have hstart := step_ctrlCmd hs hp hq (hl ▸ hmax)
  have hsent := (runSteps_succ hstart).trans
    (runSteps_cmd (s := cmdStarted { s with hostq := q }) hs rfl rfl hmax hl hh rfl rfl)
  refine ⟨fun st k f hdec => ?done, fun k => operation_waits hsent ⟨hs, rfl, rfl⟩ rfl⟩
  case done =>
    obtain ⟨n, t, hrun, hends, hkeeps, hstream⟩ := operation_completes hsent ⟨hs, rfl, rfl⟩ rfl hdec
    obtain ⟨htxtype, hplen, hrawlen, htxbuf, htxHist, hop, -, -, hhostq, -, hreturned⟩ := hkeeps
    have hstatus : (completeOp t).status = st := (completeOp_status_of_cmd hop).trans hends.status
    exact ⟨n, completeOp t, hrun, rfl, rfl, hstatus ▸ completeOp_response hends, htxHist, hstream,
      htxtype, hplen, hrawlen, htxbuf, hhostq, hreturned⟩

/-- Settles O60: the start step, `runSteps_raw` and the attempt of DEC; COR sees the byte at offset
3. -/
theorem rawOperationIsItsFunction : Obligations.RawOperationIsItsFunction := by
  intro s bytes req q hs hp hq hmin hmax hl hh hreq
  have hstart := step_ctrlRaw hs hp hq (hl ▸ ⟨hmin, hmax⟩)
  have hne : bytes ≠ [] := by rintro rfl; cases hreq
  have hsent := (runSteps_succ hstart).trans
    (runSteps_raw (s := rawStarted { s with hostq := q }) hs rfl rfl hmax hh rfl hl hne)
  refine ⟨fun st k f hdec => ?done, fun k => operation_waits hsent ⟨hs, rfl, rfl⟩ rfl⟩
  case done =>
    obtain ⟨n, t, hrun, hends, hkeeps, hstream⟩ := operation_completes hsent ⟨hs, rfl, rfl⟩ rfl hdec
    obtain ⟨htxtype, hplen, hrawlen, htxbuf, htxHist, hop, htype, -, hhostq, -, hreturned⟩ := hkeeps
    have hreqType : t.reqType = req := by
      rw [htype, List.getD_eq_getElem?_getD, hreq]; rfl
    have hstatus : (completeOp t).status = correlateTypes st req t.rtype :=
      (if_pos hop).trans (by rw [hends.status, hreqType])
    have hresponse := completeOp_response hends
    rw [hstatus] at hresponse
    refine ⟨n, completeOp t, hrun, rfl, rfl, ?fields, ?none, htxHist, hstream, htxtype, hplen,
      hrawlen, htxbuf, hhostq, hreturned⟩
    case fields =>
      intro fields hf
      obtain ⟨-, hheld⟩ := hends.held fields hf
      rwa [hheld.ty] at hresponse
    case none =>
      rintro rfl
      have hst : st ≠ .ok := by rcases hends.failed rfl with e | e | ⟨e, -⟩ <;> simp [e]
      rwa [correlateTypes_of_ne_ok hst] at hresponse

end Sys2Proof.Machine

/-! PROOF. What starts an operation (43_dispatch_correlate.md R180, R181): the codes and bytes the
host hands over, the FRAME rows, and how each start takes effect on an idle engine and waits on a
busy one. -/

namespace Sys2Proof.Machine

section Starts

variable {s : State} {q : List HostItem} {bytes p : List Byte}

/-! ### Load and start -/

theorem readByte_writeBytes_front (m : Memory) (bytes : List Byte) (j : Nat) :
    (m.writeBytes 0 bytes).readByte j = if j < bytes.length then bytes[j]? else m.readByte j := by
  simp [Memory.readByte_writeBytes]

theorem cmdIsStarted_sendCommand (hl : p.length ≤ 253) (ty : Byte) (q : List HostItem) (s : State) :
    cmdIsStarted ty p q s (sendCommand ty p { s with hostq := q ++ s.hostq }) :=
  ⟨_, readByte_writeBytes_front s.txbuf p, sendCommand_eq_next.2 ⟨hl, rfl⟩⟩

theorem rawIsStarted_sendVerbatim (hmin : 4 ≤ bytes.length) (hmax : bytes.length ≤ 258)
    (s : State) : rawIsStarted bytes s (sendVerbatim bytes s) :=
  ⟨_, readByte_writeBytes_front s.txbuf bytes, sendVerbatim_eq_next.2 ⟨⟨hmin, hmax⟩, rfl⟩⟩

theorem cmdIsStarted_sendByCmd (hl : p.length ≤ 253) (hp : s.phase = .idle) (ty : Byte) :
    cmdIsStarted ty p [] s (sendByCmd ty p s) := by
  rw [sendByCmd, whenIdle_of_idle _ _ hp]
  exact cmdIsStarted_sendCommand hl ty [] s

theorem rawIsStarted_sendByRaw (hmin : 4 ≤ bytes.length) (hmax : bytes.length ≤ 258)
    (hp : s.phase = .idle) : rawIsStarted bytes s (sendByRaw bytes s) := by
  rw [sendByRaw, whenIdle_of_idle _ _ hp]
  exact rawIsStarted_sendVerbatim hmin hmax s

theorem sendByRaw_refused (h : bytes.length < 4 ∨ 258 < bytes.length) (hp : s.phase = .idle) :
    sendByRaw bytes s = .refused .rawlenOutOfRange := by
  rw [sendByRaw, whenIdle_of_idle _ _ hp]
  refine if_neg ?_
  simp only [Config.minRawlen, Config.txbufSize]
  omega

/-- The caller of a device operation waits for its return first. -/
theorem cmdIsStarted_commandThenCollect (hl : p.length ≤ 253) (hp : s.phase = .idle)
    (item : HostItem) (k : ReturnKind) (ty : Byte) :
    cmdIsStarted ty p [.collect k] s (whenIdle item (commandThenCollect k ty p) s) := by
  rw [whenIdle_of_idle _ _ hp]
  exact cmdIsStarted_sendCommand hl ty [.collect k] s

theorem whenIdle_of_busy (item : HostItem) (act : State → Result) (hp : s.phase ≠ .idle) :
    whenIdle item act s = .next { s with hostq := item :: s.hostq } := if_neg hp

/-! ### Frames -/

/-- A well-formed frame sent by CMD is the one ENC makes of its type and payload. -/
theorem frameBytes_eq_encodeFrame {ty len : Byte} {rest : List Byte}
    (h : frameWf .cmd ty len rest = true) :
    rest.dropLast.length ≤ 253 ∧ frameBytes ty len rest = encodeFrame ty rest.dropLast := by
  have hlength := frameWf_length h
  simp only [frameWf, Bool.and_eq_true, decide_eq_true_eq, beq_iff_eq] at h
  obtain ⟨-, hmin, hlast⟩ := h
  obtain ⟨p, hrest⟩ := List.getLast?_eq_some_iff.1 hlast
  have hdrop : rest.dropLast = p := (congrArg List.dropLast hrest).trans List.dropLast_concat
  rw [hdrop] at hrest ⊢
  have hmax := len.isLt
  have hlen : p.length + 2 = len.toNat := by
    rw [hrest, List.length_append, List.length_singleton] at hlength
    simp only [Config.minLen] at hmin
    omega
  have hbyte : len = lenByte p.length := by rw [lenByte, hlen]; simp
  refine ⟨by omega, ?_⟩
  rw [encodeFrame_eq, ← hbyte, frameBytes, List.append_assoc, ← hrest]

theorem frameBytes_length {via : Via} {ty len : Byte} {rest : List Byte}
    (h : frameWf via ty len rest = true) :
    4 ≤ (frameBytes ty len rest).length ∧ (frameBytes ty len rest).length ≤ 258 := by
  have hlength := frameWf_length h
  have hmax := len.isLt
  simp only [frameBytes, List.length_append, length_frameHeader]
  omega

/-! ### The host's acts -/

theorem step_hostTurn_runs {item : HostItem} {r : List Turn} (hr : s.sched = .host :: r)
    (hq : s.hostq = item :: q) (h : s.phase = .idle ∨ item.mayProceedBusy = true) :
    step s = runItem item { s with hostq := q, sched := r } :=
  (step_hostTurn hr).trans (hostMove_runs (s := { s with sched := r }) hq h)

theorem runFrame_of_decode {via : Via} {i : Instr} {other : State → Result}
    (h : decode (.frame via bytes) = .ok (i, [])) : runFrame via bytes other s = exec i s := by
  simp only [runFrame, h]

end Starts

/-- Settles O13: on an idle engine each start is its start step, within the domain of its guard. -/
theorem startsTakeEffectWhenIdle : Obligations.StartsTakeEffectWhenIdle := by
  intro s hp
  refine ⟨whenIdle_of_idle _ _ hp, fun hl => ?cmd, fun hmin hmax => ?raw⟩
  case cmd =>
    rw [exec_cmd_of_idle hp]
    exact startCmd_eq_next.2 ⟨hl, rfl⟩
  case raw =>
    rw [exec_raw_of_idle hp]
    exact startRaw_eq_next.2 ⟨⟨hmin, hmax⟩, rfl⟩

/-- Settles O4: the idle machine runs the host's first act (`step_hostAct`), and bytes that decode
run as the instruction they decode to (`runFrame_of_decode`). -/
theorem hostFetchRunsDecodedInstruction : Obligations.HostFetchRunsDecodedInstruction := by
  intro s i q hp hs
  have hrun : ∀ {item}, s.hostq = item :: q → step s = runItem item { s with hostq := q } :=
    step_hostAct hs hp
  refine ⟨fun v hq hd => ?ctrl, fun bytes hq hd => (hrun hq).trans (runFrame_of_decode hd),
    fun bytes hq hd => ?received, fun ty payload hl hq hd => ?command,
    fun hq hc => (hrun hq).trans (if_pos hc)⟩
  case ctrl =>
    cases hd
    exact hrun hq
  case received =>
    exact (hrun hq).trans (runFrame_of_decode (other := fun u => .next (deliver bytes u)) hd)
  case command => exact (hrun hq).trans ((if_pos hl).trans (runFrame_of_decode hd))

/-- Settles O5: whether or not the bytes are a frame, the act is `sendByRaw`, `sendByCmd` or a
delivery (`runItem_verbatim`, `runItem_command`, `runItem_received`). -/
theorem handedOverBytesHaveTheirEffect : Obligations.HandedOverBytesHaveTheirEffect := by
  refine ⟨fun s q hp hs => ⟨?raw, ?rawRefused, ?cmd, ?cmdRefused, ?call⟩,
    fun s bytes q r hq => ⟨?idle, ?turn⟩⟩
  case raw =>
    intro bytes hq hmin hmax
    rw [step_hostAct hs hp hq, runItem_verbatim]
    exact rawIsStarted_sendByRaw (s := { s with hostq := q }) hmin hmax hp
  case rawRefused =>
    intro bytes hq hl
    rw [step_hostAct hs hp hq, runItem_verbatim]
    exact sendByRaw_refused (s := { s with hostq := q }) hl hp
  case cmd =>
    intro ty p hq hl
    rw [step_hostAct hs hp hq, runItem_command ty hl]
    exact cmdIsStarted_sendByCmd (s := { s with hostq := q }) hl hp ty
  case cmdRefused =>
    intro ty p hq hl
    rw [step_hostAct hs hp hq]
    exact if_neg (Nat.not_le.2 hl)
  case call =>
    intro i hq hc
    rw [step_hostAct hs hp hq]
    exact if_neg (by simp [hc])
  case idle =>
    intro hp hs
    rw [step_hostAct hs hp hq, runItem_received]
    rfl
  case turn =>
    intro hr
    rw [step_hostTurn_runs hr hq (.inr rfl), runItem_received]
    rfl

/-- Settles O43: each start asks through `whenIdle`, a frame through the interface it crosses. -/
theorem busyStartsWait : Obligations.BusyStartsWait := by
  intro s hp
  refine ⟨whenIdle_of_busy _ _ hp, whenIdle_of_busy _ _ hp, whenIdle_of_busy _ _ hp, ?raw, ?cmd,
    ?device⟩
  case raw =>
    intro i bytes he
    obtain ⟨ty, len, rest, rfl, hterm⟩ := frameTerm_of_encode he
    rw [hterm.exec_eq]
    exact whenIdle_of_busy _ _ hp
  case cmd =>
    intro i ty p he
    obtain ⟨ty', len, rest, hbytes, hterm⟩ := frameTerm_of_encode he
    simp only [encodeFrame, frameBytes, frameHeader, List.cons_append, List.nil_append,
      List.cons.injEq, true_and] at hbytes
    obtain ⟨-, rfl, rfl⟩ := hbytes
    rw [hterm.exec_eq, frameCrosses, List.dropLast_concat]
    exact whenIdle_of_busy _ _ hp
  case device =>
    intro i hi
    rcases hi with rfl | ⟨_, rfl⟩ | ⟨_, rfl⟩ | ⟨_, rfl⟩ | ⟨_, _, _, rfl⟩ | ⟨_, rfl⟩ |
      ⟨_, _, rfl⟩ <;>
      exact whenIdle_of_busy _ _ hp

/-- Settles O53: every FRAME row is its bytes crossing their interface (`frameTerm_of_encode`). -/
theorem receivedFramesJoinTheStream : Obligations.ReceivedFramesJoinTheStream := by
  intro i bytes s he
  obtain ⟨ty, len, rest, rfl, hterm⟩ := frameTerm_of_encode he
  exact hterm.exec_eq s

/-- Settles O54: the frame is ENC's (`frameBytes_eq_encodeFrame`), and CMD takes its type and
payload. -/
theorem framesSentByCmdStartTheirCmd : Obligations.FramesSentByCmdStartTheirCmd := by
  intro i bytes s hw he hp
  obtain ⟨ty, len, rest, rfl, hterm⟩ := frameTerm_of_encode he
  obtain ⟨hl, hbytes⟩ := frameBytes_eq_encodeFrame (hterm.wf_imp hw).1
  refine ⟨ty, rest.dropLast, hl, hbytes, ?_⟩
  rw [hterm.exec_eq]
  exact cmdIsStarted_sendByCmd hl hp ty

/-- Settles O55: a well-formed frame has 4 to 258 bytes (`frameBytes_length`), and RAW takes all of
them. -/
theorem framesSentByRawStartTheirRaw : Obligations.FramesSentByRawStartTheirRaw := by
  intro i bytes s hw he hp
  obtain ⟨ty, len, rest, rfl, hterm⟩ := frameTerm_of_encode he
  obtain ⟨hmin, hmax⟩ := frameBytes_length (hterm.wf_imp hw).1
  rw [hterm.exec_eq]
  exact ⟨hmin, hmax, rawIsStarted_sendByRaw hmin hmax hp⟩

end Sys2Proof.Machine

/-! PROOF. The device operations (44_device_operations.md R211 to R219): the bytes of their payloads
as integers, and the CMD each one starts. -/

namespace Sys2Proof.Machine

section Payloads

/-! ### Clamped integers as bytes -/

theorem clamp_bounds {lo hi : Int} (h : lo ≤ hi) (x : Int) :
    lo ≤ clamp x lo hi ∧ clamp x lo hi ≤ hi := by
  unfold clamp
  split_ifs <;> omega

theorem toNat_ofInt_mod (w : Nat) (x : Int) : ((BitVec.ofInt w x).toNat : Int) = x % 2 ^ w := by
  rw [BitVec.toNat_ofInt, Int.toNat_of_nonneg (Int.emod_nonneg x (by positivity))]
  norm_cast

theorem toNat_ofInt_of_lt {w : Nat} {x : Int} (h0 : 0 ≤ x) (h : x < 2 ^ w) :
    ((BitVec.ofInt w x).toNat : Int) = x :=
  (toNat_ofInt_mod w x).trans (Int.emod_eq_of_lt h0 h)

theorem txPower_byte (dB : Int) :
    ((BitVec.ofInt 8 (2 * clamp dB 1 10)).toNat : Int) = 2 * clamp dB 1 10 := by
  obtain ⟨hlo, hhi⟩ := clamp_bounds (show (1 : Int) ≤ 10 by decide) dB
  exact toNat_ofInt_of_lt (by omega) (by omega)

theorem channelSpacing_byte (kHz : Int) :
    ((BitVec.ofInt 8 (clamp kHz 100 200)).toNat : Int) = clamp kHz 100 200 := by
  obtain ⟨hlo, hhi⟩ := clamp_bounds (show (100 : Int) ≤ 200 by decide) kHz
  exact toNat_ofInt_of_lt (by omega) (by omega)

/-! ### The payload of setFrequency -/

/-- Four bytes, most significant first, are the number in base 256. -/
theorem bigEndian4_value (v : BitVec 32) :
    ((v.extractLsb' 24 8).toNat * 16777216 + (v.extractLsb' 16 8).toNat * 65536 +
      (v.extractLsb' 8 8).toNat * 256 + (v.extractLsb' 0 8).toNat : Int) = v.toNat := by
  have hlt := v.isLt
  simp only [BitVec.extractLsb'_toNat, Nat.shiftRight_eq_div_pow]
  omega

theorem frequency_value (hz : Int) :
    ((BitVec.ofInt 32 (clamp hz 470000000 928000000)).toNat : Int) =
      clamp hz 470000000 928000000 := by
  obtain ⟨hlo, hhi⟩ := clamp_bounds (show (470000000 : Int) ≤ 928000000 by decide) hz
  exact toNat_ofInt_of_lt (by omega) (by omega)

theorem channelCount_byte (count : Int) :
    ((BitVec.ofInt 8 (clamp count 1 6)).toNat : Int) = clamp count 1 6 := by
  obtain ⟨hlo, hhi⟩ := clamp_bounds (show (1 : Int) ≤ 6 by decide) count
  exact toNat_ofInt_of_lt (by omega) (by omega)

theorem chIndexBase_cases : Config.chIndexBase = 0 ∨ Config.chIndexBase = 1 := by
  unfold Config.chIndexBase
  split
  · exact .inr rfl
  · exact .inl rfl

theorem length_channelBytes (base : Int) (c : Nat) (step : Int) :
    (channelBytes base c step).length = c := by
  simp [channelBytes]

theorem channelBytes_value {base : Int} {c : Nat} {step : Int} {k : Nat} {b : Byte}
    (h : (channelBytes base c step)[k]? = some b) :
    (b.toNat : Int) = ((k : Int) + base) * step % 256 := by
  obtain ⟨hk, rfl⟩ := List.getElem?_eq_some_iff.1 h
  simp only [channelBytes, List.getElem_map, List.getElem_range]
  exact toNat_ofInt_mod 8 _

variable {hz count : Int} {fs : FreqStep}

theorem frequencyPayload_of_one (h : clamp count 1 6 = 1) : frequencyPayload hz count fs =
    0x00 :: bigEndian4 (BitVec.ofInt 32 (clamp hz 470000000 928000000)) := if_pos h

theorem frequencyPayload_of_more (h : clamp count 1 6 ≠ 1) : frequencyPayload hz count fs =
    0x01 :: bigEndian4 (BitVec.ofInt 32 (clamp hz 470000000 928000000)) ++
      BitVec.ofInt 8 (clamp count 1 6) ::
        channelBytes Config.chIndexBase (clamp count 1 6).toNat (clamp (freqStepUnits fs) 1 2) :=
  if_neg h

theorem length_frequencyPayload : (frequencyPayload hz count fs).length ≤ 253 := by
  obtain ⟨-, hhi⟩ := clamp_bounds (show (1 : Int) ≤ 6 by decide) count
  by_cases h : clamp count 1 6 = 1
  · rw [frequencyPayload_of_one h]; simp [bigEndian4]
  · rw [frequencyPayload_of_more h]
    simp only [bigEndian4, List.length_append, List.length_cons, List.length_nil,
      length_channelBytes]
    omega

end Payloads

/-- Settles O56: the payloads are written out, their clamped bytes are `txPower_byte` and
`channelSpacing_byte`, and each operation loads and starts its CMD
(`cmdIsStarted_commandThenCollect`). -/
theorem deviceOperationsSendTheirPayloads : Obligations.DeviceOperationsSendTheirPayloads := by
  refine ⟨fun _ _ _ => rfl, fun _ => rfl, fun s hp => ?_⟩
  have hstart : ∀ {p : List Byte} item k ty, p.length ≤ 253 →
      cmdIsStarted ty p [.collect k] s (whenIdle item (commandThenCollect k ty p) s) :=
    fun item k ty hl => cmdIsStarted_commandThenCollect hl hp item k ty
  refine ⟨hstart _ _ _ (by decide), hstart _ _ _ (by decide), hstart _ _ _ (by decide),
    fun dB => ⟨_, txPower_byte dB, hstart _ _ _ (show 1 ≤ 253 by decide)⟩,
    fun kHz => ⟨_, channelSpacing_byte kHz, hstart _ _ _ (show 1 ≤ 253 by decide)⟩,
    hstart _ _ _ (by decide), fun m hm => ?txMode, fun bytes hne => ?appData⟩
  case txMode =>
    cases m with
    | fsk4 => exact absurd rfl hm
    | fsk8reserved | other => exact hstart _ _ _ (by decide)
  case appData =>
    have hlength : (bytes.take 30).length = min bytes.length 30 := by
      rw [List.length_take, Nat.min_comm]
    have hexec : exec (.transmitApplicationData bytes) s =
        sendCommand Config.tyAppData (bytes.take 30) s :=
      (if_neg hne).trans (whenIdle_of_idle _ _ hp)
    refine ⟨hlength, ?_⟩
    rw [hexec]
    exact cmdIsStarted_sendCommand (by omega) _ [] s

/-- Settles O57: the frequency is four bytes in base 256 (`bigEndian4_value`), and each channel byte
is `channelBytes_value`, whatever the OPEN constants are. -/
theorem setFrequencySendsItsPayload : Obligations.SetFrequencySendsItsPayload := by
  intro hz count fs s hp
  obtain ⟨hlo, hhi⟩ := clamp_bounds (show (1 : Int) ≤ 6 by decide) count
  have hc := channelCount_byte count
  have hvalue := bigEndian4_value (BitVec.ofInt 32 (clamp hz 470000000 928000000))
  have hfreq := frequency_value hz
  refine ⟨_, _, _, _, frequencyPayload hz count fs, hvalue.trans hfreq,
    frequencyPayload_of_one, fun hmore => ?channels,
    cmdIsStarted_commandThenCollect length_frequencyPayload hp _ _ _⟩
  obtain ⟨hstep1, hstep2⟩ := clamp_bounds (show (1 : Int) ≤ 2 by decide) (freqStepUnits fs)
  refine ⟨Config.chIndexBase, clamp (freqStepUnits fs) 1 2, BitVec.ofInt 8 (clamp count 1 6),
    channelBytes Config.chIndexBase (clamp count 1 6).toNat (clamp (freqStepUnits fs) 1 2),
    chIndexBase_cases, by omega, ?units, hc, ?length, fun _ _ => channelBytes_value,
    frequencyPayload_of_more hmore⟩
  case units => rintro n rfl; rfl
  case length => rw [length_channelBytes]; omega

end Sys2Proof.Machine

/-! PROOF. The rows that speak of one state: the FUNC rows (40_checksum.md R120 to R122,
41_encode.md R130, 42_decode.md R159, 43_dispatch_correlate.md R182) and the transmit steps
(41_encode.md R133 to R141). -/

namespace Sys2Proof.Machine

section TransmitRows

variable {s : State}

/-- Within the frame `tx_pos` counts without wrapping. -/
theorem toNat_txPos_succ {pos : BitVec 9} (h : pos.toNat < 511) :
    (pos + 1).toNat = pos.toNat + 1 := by
  bv_omega

theorem exec_txCmdPayload (hp : s.phase = .tx) (ho : s.op = .cmd) (hlow : 4 ≤ s.txPos.toNat)
    (hhigh : s.txPos.toNat ≤ s.plen.toNat + 3) :
    exec .txCmdPayload s = .next (txCmdByte (readCell s.txbuf (s.txPos.toNat - 4) s).1
      (readCell s.txbuf (s.txPos.toNat - 4) s).2) := if_pos ⟨hp, ho, hlow, hhigh⟩

theorem exec_txRawByte (hp : s.phase = .tx) (ho : s.op = .raw) :
    exec .txRawByte s = .next (txRawByteOp (readCell s.txbuf s.txPos.toNat s).1
      (readCell s.txbuf s.txPos.toNat s).2) := if_pos ⟨hp, ho⟩

theorem toNat_txPos_succ_of_payload (hhigh : s.txPos.toNat ≤ s.plen.toNat + 3) :
    (s.txPos + 1).toNat = s.txPos.toNat + 1 := by
  have hmax := s.plen.isLt
  exact toNat_txPos_succ (by omega)

/-- What a RAW byte sends, captures and leaves, last or not. -/
theorem txRawByteOp_frame (b : Byte) (s : State) :
    (txRawByteOp b s).txHist = s.txHist ++ [b] ∧ (txRawByteOp b s).freeCtr = s.freeCtr ∧
      (txRawByteOp b s).reqType = (if s.txPos.toNat = 3 then b else s.reqType) ∧
      (txRawByteOp b s).txbuf = s.txbuf ∧ (txRawByteOp b s).rxStream = s.rxStream ∧
      (txRawByteOp b s).chkAcc = s.chkAcc ∧ (txRawByteOp b s).status = s.status := by
  rcases txRawByteOp_cases b s with ⟨-, e⟩ | ⟨-, e⟩ <;> rw [e] <;>
    exact ⟨rfl, rfl, rfl, rfl, rfl, rfl, rfl⟩

end TransmitRows

/-- Settles O9: each row is one write of `chk_acc` or one `giveBack`; the two sums are the integer's
(`checksum8_toNat`). -/
theorem functionRowsHandBackTheirValue : Obligations.FunctionRowsHandBackTheirValue :=
  ⟨fun _ _ => rfl, fun b s => ⟨s.chkAcc + b, BitVec.toNat_add .., rfl⟩,
    fun bytes _ => ⟨checksum8 bytes, checksum8_toNat bytes, rfl⟩, fun _ _ _ hl => if_pos hl,
    fun _ _ _ hl => if_neg (Nat.not_le.2 hl), fun _ _ => rfl, fun _ _ _ _ => rfl⟩

/-- Settles O15: each row runs at its position, and the next one is a number. -/
theorem cmdHeaderBytesAreSent : Obligations.CmdHeaderBytesAreSent := by
  intro s hp ho
  have hat : ∀ {pos : BitVec 9}, s.txPos = pos → s.txCmdAt pos.toNat :=
    fun h => ⟨hp, ho, congrArg BitVec.toNat h⟩
  have hsent : ∀ (b : Byte) {pos : BitVec 9}, s.txPos = pos →
      txCmdByte b s =
        { s with txHist := s.txHist ++ [b], chkAcc := s.chkAcc + b, txPos := pos + 1 } :=
    fun _ _ h => by rw [← h]; rfl
  refine ⟨fun h => ?preamble0, fun h => ?preamble1, fun h hl => ?len, fun h hl => ?lenRefused,
    fun h => ?type⟩
  case preamble0 => exact (if_pos (hat h)).trans (congrArg _ (hsent _ h))
  case preamble1 => exact (if_pos (hat h)).trans (congrArg _ (hsent _ h))
  case len =>
    exact ⟨_, toNat_lenByte hl, (if_pos (hat h)).trans ((if_pos hl).trans (congrArg _ (hsent _ h)))⟩
  case lenRefused => exact (if_pos (hat h)).trans (if_neg (Nat.not_le.2 hl))
  case type =>
    refine (if_pos (hat h)).trans ?_
    rw [hsent s.txtype h]
    rfl

/-- Settles O16: the read draws nothing from a byte that is held (`readCell_of_some`). -/
theorem cmdPayloadByteIsSent : Obligations.CmdPayloadByteIsSent := by
  intro s b hp ho
  refine ⟨fun hlow hhigh hb => ⟨s.txPos + 1, toNat_txPos_succ_of_payload hhigh, ?sent⟩,
    fun h0 => ?none⟩
  case sent =>
    rw [exec_txCmdPayload hp ho hlow hhigh, readCell_of_some _ hb]
    rfl
  case none =>
    refine if_neg ?_
    rw [h0]
    rintro ⟨-, -, hlow, hhigh⟩
    exact absurd (hlow.trans hhigh) (by decide)

/-- Settles O17, by the row at its position. -/
theorem cmdCrcByteEntersTheDecoder : Obligations.CmdCrcByteEntersTheDecoder :=
  fun _ hp ho hpos => if_pos ⟨hp, ho, hpos⟩

/-- Settles O18: the byte is held, and the step is `transmitByte`'s position or decoder entry. -/
theorem rawByteIsSentVerbatim : Obligations.RawByteIsSentVerbatim := by
  intro s b req hp ho hb hreq
  have hexec := exec_txRawByte hp ho
  rw [readCell_of_some _ hb] at hexec
  refine ⟨fun hmore => ?more, fun hlast => ?last⟩
  case more =>
    have hmax := s.rawlen.isLt
    refine ⟨s.txPos + 1, toNat_txPos_succ (by omega), ?_⟩
    rw [hexec, hreq]
    exact congrArg _ (if_neg hmore.ne)
  case last =>
    rw [hexec, hreq]
    exact congrArg _ (txRawByteOp_last b hlast)

/-- Settles O19: a read of a byte that is not held gives a free value and draws it
(`readCell_of_none`). -/
theorem unwrittenOperandBytesAreFree : Obligations.UnwrittenOperandBytesAreFree := by
  intro s hp
  refine ⟨fun ho hlow hhigh hb => ?payload, fun ho hb => ?raw⟩
  case payload =>
    refine ⟨Config.freeBits 8 s.freeCtr, s.txPos + 1, toNat_txPos_succ_of_payload hhigh, ?_⟩
    rw [exec_txCmdPayload hp ho hlow hhigh, readCell_of_none _ hb]
    rfl
  case raw =>
    have hexec := exec_txRawByte hp ho
    rw [readCell_of_none _ hb] at hexec
    exact ⟨_, _, hexec, txRawByteOp_frame (Config.freeBits 8 s.freeCtr) (s.draw 1)⟩

end Sys2Proof.Machine

/-! PROOF. The host's accesses one by one (10_state.md R21 to R27, R42; 43_dispatch_correlate.md
R188), the return of a device operation (44_device_operations.md R210), and reset (10_state.md R39,
70_reset_and_hazards.md R260). -/

namespace Sys2Proof.Machine

section Accesses

variable {s : State}

/-! ### Reads of the response -/

theorem readResponseByte_of_reliable (h : s.responseReliable = true) (v : Byte) :
    readResponseByte v s.responseReliable s = giveBack (.byte v) s := if_pos h

theorem readResponseByte_of_unreliable (h : s.responseReliable = false) (v : Byte) :
    readResponseByte v s.responseReliable s =
      giveBack (.byte (Config.freeBits 8 s.freeCtr)) (s.draw 1) := by
  rw [h]; rfl

theorem hostReadRxbuf_of_held {i : Nat} {b : Byte} (h : s.responseReliable = true) (hi : i < 253)
    (hlen : i + 2 < s.rlen.toNat) (hb : s.rxbuf.readByte i = some b) :
    hostReadRxbuf i s = .next (giveBack (.byte b) s) := by
  refine (if_pos hi).trans ((if_pos ⟨h, hlen⟩).trans ?_)
  rw [readCell_of_some _ hb]

theorem hostReadRxbuf_of_free {i : Nat} (hi : i < 253)
    (h : ¬ (s.responseReliable = true ∧ i + 2 < s.rlen.toNat)) :
    hostReadRxbuf i s = .next (giveBack (.byte (Config.freeBits 8 s.freeCtr)) (s.draw 1)) :=
  (if_pos hi).trans (if_neg h)

theorem responseReliable_eq_false (h : s.respValid = false ∨ s.status = .timeout ∨
    s.status = .formatErr ∨ (s.status = .checksumErr ∧ s.chkAcc ≠ s.rcrc)) :
    s.responseReliable = false := by
  rw [← Bool.not_eq_true, responseReliable_iff]
  rintro ⟨hvalid, hstatus⟩
  rcases h with e | e | e | ⟨e, hsum⟩
  · rw [hvalid] at e; cases e
  · simp [e] at hstatus
  · simp [e] at hstatus
  · simp [e, hsum] at hstatus

/-! ### Refused accesses -/

theorem writeHreg_outOfRange {n : Nat} (h : 7 < n) (v : HostWord) (s : State) :
    writeHreg n v s = .refused .hregOutOfRange := by
  match n, h with
  | _ + 8, _ => rfl

theorem readHreg_outOfRange {n : Nat} (h : 7 < n) (s : State) :
    readHreg n s = .refused .hregOutOfRange := by
  match n, h with
  | _ + 8, _ => rfl

theorem runItem_write {n : Nat} (h : n ≠ 0) (v : HostWord) :
    runItem (.write n v) s = writeHreg n v s := by
  obtain ⟨m, rfl⟩ := Nat.exists_eq_succ_of_ne_zero h
  rfl

/-! ### STAT -/

theorem readStat_eq (s : State) : ∃ n, readStat s = giveBack (.word s.statWord) (s.draw n) := by
  unfold readStat
  split
  · exact ⟨0, rfl⟩
  · exact ⟨1, rfl⟩

end Accesses

/-- Settles O38: the word is `statWord`, taken apart by `statWord_fields`. -/
theorem statShowsTheFlags : Obligations.StatShowsTheFlags := by
  refine ⟨fun s q hq hr => ?_, rfl, rfl, rfl, rfl, rfl, rfl⟩
  obtain ⟨hbusy, hvalid, hstatus, hlt⟩ := statWord_fields { s with hostq := q, sched := [] }
  obtain ⟨n, hread⟩ := readStat_eq { s with hostq := q, sched := [] }
  have hstep : step s = .next (readStat { s with hostq := q, sched := [] }) :=
    step_hostTurn_runs hr hq (.inr rfl)
  rw [hread] at hstep
  refine ⟨_, _, hstep, rfl, rfl, rfl, rfl, rfl, ?_, ?_, hlt, fun hv => hstatus.trans (if_pos hv)⟩
  · rw [hbusy]; exact decide_eq_true_iff
  · rw [hvalid]

/-- Settles O39: each access is the host's first act (`step_hostAct`), and TXBUF reads by its laws.
-/
theorem hostLoadsTheOperands : Obligations.HostLoadsTheOperands := by
  intro s q hp hs
  have hrun : ∀ {item}, s.hostq = item :: q → step s = runItem item { s with hostq := q } :=
    step_hostAct hs hp
  refine ⟨fun v => hrun, fun v => hrun, fun v => hrun, hrun, hrun, hrun,
    fun hq => ⟨s.rawlen.setWidth 16, ?rawlen, hrun hq⟩,
    fun i b hi hq => ⟨_, s.txbuf.readByte_writeByte i (b := b), (hrun hq).trans (if_pos hi)⟩,
    fun i b hi hq hb => (hrun hq).trans ((if_pos hi).trans ?txbuf)⟩
  case rawlen =>
    have hmax := s.rawlen.isLt
    rw [BitVec.toNat_setWidth]
    omega
  case txbuf => rw [readCell_of_some _ hb]; rfl

/-- Settles O40: the reads test `responseReliable`, which holds or fails by the status. -/
theorem responseReadsFollowTheirStatus : Obligations.ResponseReadsFollowTheirStatus := by
  intro s q hp hs
  have hrun : ∀ {item}, s.hostq = item :: q → step s = runItem item { s with hostq := q } :=
    step_hostAct hs hp
  refine ⟨fun hvalid hstatus => ?reliable, fun item hq hfree => ?free⟩
  case reliable =>
    have hrel : State.responseReliable { s with hostq := q } = true :=
      (responseReliable_iff s).2 ⟨hvalid, hstatus⟩
    exact ⟨fun hq => (hrun hq).trans (congrArg _ (readResponseByte_of_reliable hrel s.rlen)),
      fun hq => (hrun hq).trans (congrArg _ (readResponseByte_of_reliable hrel s.rtype)),
      fun hq => (hrun hq).trans (congrArg _ (readResponseByte_of_reliable hrel s.rcrc)),
      fun i b hi hlen hb hq => (hrun hq).trans (hostReadRxbuf_of_held hrel hi hlen hb)⟩
  case free =>
    rw [hrun hq]
    rcases hfree with ⟨hstatus, hitem⟩ | ⟨i, hi, hlen, rfl⟩
    · have hunrel : State.responseReliable { s with hostq := q } = false :=
        responseReliable_eq_false hstatus
      rcases hitem with rfl | rfl | rfl | ⟨i, hi, rfl⟩
      · exact congrArg _ (readResponseByte_of_unreliable hunrel s.rlen)
      · exact congrArg _ (readResponseByte_of_unreliable hunrel s.rtype)
      · exact congrArg _ (readResponseByte_of_unreliable hunrel s.rcrc)
      · exact hostReadRxbuf_of_free hi (by simp [hunrel])
    · exact hostReadRxbuf_of_free (s := { s with hostq := q }) hi fun h =>
        absurd h.2 (Nat.not_lt.2 hlen)

/-- Settles O41: each access is the host's first act, and the guard of its rule fails. -/
theorem senselessAccessesAreRefused : Obligations.SenselessAccessesAreRefused := by
  intro s q hp hs
  have hrun : ∀ {item}, s.hostq = item :: q → step s = runItem item { s with hostq := q } :=
    step_hostAct hs hp
  refine ⟨fun n v hn hq => (hrun hq).trans ?readOnly,
    fun n v hn hq =>
      (hrun hq).trans ((runItem_write (by omega) v).trans (writeHreg_outOfRange hn v _)),
    fun n hn hq => (hrun hq).trans (readHreg_outOfRange hn _),
    fun i b hi hq => (hrun hq).trans (if_neg (Nat.not_lt.2 hi)),
    fun i hi hq => (hrun hq).trans (if_neg (Nat.not_lt.2 hi)),
    fun i b hi hq => (hrun hq).trans (if_pos (Nat.lt_succ_of_le hi)),
    fun i b hi hq => (hrun hq).trans (if_neg (Nat.not_lt.2 hi)),
    fun i hi hq => (hrun hq).trans (if_neg (Nat.not_lt.2 hi))⟩
  rcases hn with rfl | rfl | rfl | rfl <;> rfl

/-- Settles O48: the step is `resetEngine`, whose fields Laws/State.lean lists. -/
theorem resetInputAbandonsTheOperation : Obligations.ResetInputAbandonsTheOperation := by
  intro s r hr
  have hstep : step s = .next (resetEngine { s with sched := r }) := by simp only [step, move, hr]
  exact ⟨_, hstep, rfl, rfl, rfl, rfl, rfl, rfl, rfl, rfl, fun _ => rfl, fun _ => rfl⟩

/-- Settles O49: the fields of `State.reset`, read through `statWord_fields` where STAT shows them.
-/
theorem resetStateIsIdle : Obligations.ResetStateIsIdle := by
  obtain ⟨hbusy, hvalid, -, -⟩ := statWord_fields State.reset
  exact ⟨rfl, rfl, rfl, hbusy, hvalid, rfl⟩

/-- Settles O58: `collectReturn` is the host's first act. -/
theorem deviceOperationsReturnTheirStatus : Obligations.DeviceOperationsReturnTheirStatus := by
  intro s q hp hs hvalid
  refine ⟨fun hq => (step_hostAct hs hp hq).trans (congrArg _ (if_pos hvalid)),
    fun hq => ⟨_, step_hostAct hs hp hq⟩⟩

end Sys2Proof.Machine
